-- ==== Sys2Proof/Word.lean ====
section
/-! DEFINITION. The words of the DZ3140: bytes of frames and images, and the drum count. -/

namespace Sys2Proof

/-- A byte of a frame, of the configuration image or of a drive port telegram (R204). -/
abbrev Byte := BitVec 8

/-- A drum count: 32 bits, wrapping (R1, R3). -/
abbrev Count := BitVec 32

/-- A timer: stopped, or running with so many milliseconds left. -/
abbrev Timer := Option Nat

/-- A qualified field input: `none` until its qualification time has passed after power-up (R202). -/
abbrev Input := Option Bool

end Sys2Proof
end

