-- ==== Sys2Proof/Syntax.lean ====
section
/-! DEFINITION. The names of the manual (states, kinds, codes), the frames of the shaft line as typed
content, and `Instr`: one constructor for each row of spec/opcode_table.json. -/

namespace Sys2Proof

/-! ## Names -/

/-- The four roles of a node (spec 00, Roles; codes in R204). -/
inductive Role where
  | winder | landing | loader | tipper
  deriving DecidableEq, Repr

/-- The two winder kinds (R191). -/
inductive WinderKind where
  | service | rock
  deriving DecidableEq, Repr

/-- The wind states (chapter 5; codes in R204). -/
inductive WindState where
  | starting | tripped | idle | preparing | running | stopping | suspended | inspection | survey | faulted
  deriving DecidableEq, Repr

/-- The phase of a leg (R27, R42). -/
inductive Phase where
  | none | accel | full | retard | creep | stopping
  deriving DecidableEq, Repr

/-- The load classes (R13). -/
inductive LoadClass where
  | empty | men | material | full | fixed | unknown
  deriving DecidableEq, Repr

/-- A direction (R11, R46). -/
inductive Dir where
  | none | down | up
  deriving DecidableEq, Repr

/-- The gate state of a landing (R140). -/
inductive GateState where
  | opened | closed | closedLocked | unknown
  deriving DecidableEq, Repr

/-- The custody field of a landing's STATE (section 4.6). -/
inductive CustodyField where
  | none | claim | held | release
  deriving DecidableEq, Repr

/-- The states of a landing (chapter 7). -/
inductive LandingState where
  | starting | noCage | cageHere | claiming | custody | locking | releasing | outOfService
  deriving DecidableEq, Repr

/-- The states of a skip point (chapter 8). -/
inductive PointState where
  | starting | noSkip | inPosition | loading | dumping | doorStuck | loaded | dumped | ready
  deriving DecidableEq, Repr

/-- The kinds of call (chapter 4). -/
inductive CallKind where
  | fetch | dispatch | relevel | ready
  deriving DecidableEq, Repr

/-- The reasons of a REFUSED answer (R71, R204). -/
inductive Reason where
  | listFull | unknownLevel | levelOutOfService | notSurveyed | notCustodian | sameLevel
  | classNotServed | notNear | wrongKind
  deriving DecidableEq, Repr

/-- The survey outcomes (R56). -/
inductive SurveyOutcome where
  | none | inProgress | complete | order | missing | deviation | aborted | refMismatch
  deriving DecidableEq, Repr

/-- The load report of a skip point (R165). -/
inductive LoadReport where
  | none | full | empty
  deriving DecidableEq, Repr

/-- The fault kinds of a winder, in the order of R115 and of their codes (R204). -/
inductive FaultKind where
  | overspeed | overwind | overrun | encoder | tracking | markerMissed | peerSilent | gateBreach
  | alarm | startFail | lateRestriction | duplicateNode
  deriving DecidableEq, Repr

/-- The reactions, strongest first (chapter 6). -/
inductive Reaction where
  | tripLatched | tripAuto | stop | slow | report
  deriving DecidableEq, Repr

/-- The two conveyances of a winder (spec 00, Conveyance subscripts). -/
inductive Conv where
  | a | b
  deriving DecidableEq, Repr

/-- The first or the second of a shaft point's served compartments (R137, R162). -/
inductive Which where
  | first | second
  deriving DecidableEq, Repr

/-- Two like things: one per conveyance, or one per served compartment. -/
structure Pair (α : Type) where
  a : α
  b : α
  deriving DecidableEq, Repr

/-- One thing for each fault kind. -/
structure PerFault (α : Type) where
  overspeed : α
  overwind : α
  overrun : α
  encoder : α
  tracking : α
  markerMissed : α
  peerSilent : α
  gateBreach : α
  alarm : α
  startFail : α
  lateRestriction : α
  duplicateNode : α
  deriving DecidableEq, Repr

/-- What a shaft point is: a landing at a level, or a loader or tipper (R53). -/
inductive PointKind where
  | landing (level : Nat)
  | loader
  | tipper
  deriving DecidableEq, Repr

/-! ## Frames (R204) -/

/-- A landing's STATE bytes 3 and 4: its report for one served compartment. -/
structure LandingComp where
  comp : Nat
  custody : CustodyField
  fitted : Bool
  present : Bool
  doubt : Bool
  deriving DecidableEq, Repr

/-- A skip point's STATE bytes 3 and 4: its report for one served compartment. -/
structure SkipComp where
  comp : Nat
  report : LoadReport
  ready : Bool
  present : Bool
  fitted : Bool
  deriving DecidableEq, Repr

/-- The content of a landing's STATE frame (R141). -/
structure LandingReport where
  level : Nat
  state : LandingState
  gate : GateState
  stopHold : Bool
  work : Bool
  outOfService : Bool
  alarm : Bool
  breach : Bool
  lockFail : Bool
  mask : BitVec 4
  first : LandingComp
  second : Option LandingComp
  deriving DecidableEq, Repr

/-- The content of a skip point's STATE frame (R165). -/
structure SkipReport where
  tipper : Bool
  state : PointState
  closed : Bool
  stopHold : Bool
  chuteHold : Bool
  doorHold : Bool
  doorStuck : Bool
  skipLost : Bool
  unready : Bool
  first : SkipComp
  second : Option SkipComp
  deriving DecidableEq, Repr

/-- A STATE frame's content. -/
inductive StateReport where
  | landing (r : LandingReport)
  | skip (r : SkipReport)
  deriving DecidableEq, Repr

/-- What a CALL asks for. `nothing` is a CALL whose kind code is 0, none. -/
inductive Ask where
  | nothing
  | fetch (level : Nat)
  | dispatch (level dest : Nat) (cls : LoadClass)
  | relevel (level : Nat)
  | ready (comp : Nat)
  deriving DecidableEq, Repr

/-- A CALL frame's content: the winder it is addressed to, and what it asks (R151, R168). -/
structure CallFrame where
  target : Nat
  ask : Ask
  deriving DecidableEq, Repr

/-- What an ANSWER says (R77). `refused none` carries the reason code 0. -/
inductive Reply where
  | accepted (position seq : Nat)
  | merged (seq : Nat)
  | refused (reason : Option Reason)
  | dropped (seq : Nat)
  deriving DecidableEq, Repr

/-- An ANSWER frame's content. -/
structure AnswerFrame where
  target : Nat
  kind : Option CallKind
  reply : Reply
  deriving DecidableEq, Repr

/-- A shaft point's ANNOUNCE (R196). -/
structure PointAnnounce where
  point : PointKind
  comp : Nat
  start : Bool
  hasLanding : Bool
  servesMen : Bool
  fitted : Bool
  stop : Int
  down : Int
  up : Int
  half : Nat
  zoneSpeed : Nat
  deriving DecidableEq, Repr

/-- A winder's ANNOUNCE (R196). -/
structure WinderAnnounce where
  kind : WinderKind
  comp : Nat
  start : Bool
  second : Bool
  deriving DecidableEq, Repr

/-- An ANNOUNCE frame's content. -/
inductive Announce where
  | point (p : PointAnnounce)
  | winder (w : WinderAnnounce)
  deriving DecidableEq, Repr

/-- The motion page of a report (R177). A position of `none` is the unknown value. -/
structure MotionPage where
  wind : WindState
  number : Nat
  x : Pair (Option Int)
  v : Pair Int
  dir : Pair Dir
  known : Bool
  validated : Bool
  cls : Pair LoadClass
  deriving DecidableEq, Repr

/-- The status page of a report (R177). Node number 0 and sequence number 0 mean none. -/
structure StatusPage where
  phase : Phase
  wind : WindState
  number : Nat
  kind : WinderKind
  first : Nat
  second : Nat
  outcome : SurveyOutcome
  call : Option CallKind
  lockout : Bool
  record : Bool
  count : Nat
  failConv : Conv
  ceiling : Nat
  refSpeed : Nat
  refDir : Dir
  parked : Option Nat
  custodian : Nat
  last : Nat
  origin : Nat
  failNode : Nat
  seq : Nat
  target : Nat
  mask : BitVec 11
  deriving DecidableEq, Repr

/-- A MOTION frame is one of a report's two pages (R177). -/
inductive Page where
  | motion (p : MotionPage)
  | status (p : StatusPage)
  deriving DecidableEq, Repr

/-- A frame's content by kind. `heardOnly` is a frame whose codes are all assigned but whose content no
sender of the manual gives it (a STATE whose role code is WINDER): it is heard and nothing more. -/
inductive Payload where
  | alarm (mask : BitVec 4)
  | marker (comp age : Nat)
  | page (p : Page)
  | state (r : StateReport)
  | call (c : CallFrame)
  | answer (a : AnswerFrame)
  | announce (a : Announce)
  | heardOnly
  deriving DecidableEq, Repr

/-- A frame: its sender and its content. -/
structure Frame where
  sender : Nat
  payload : Payload
  deriving DecidableEq, Repr

/-- The bits of a frame between its start bit and its end delimiter (R176). -/
structure RawFrame where
  priority : BitVec 9
  length : BitVec 5
  data : List Byte
  check : BitVec 16
  deriving DecidableEq, Repr

/-! ## The commands -/

/-- How an I2C read of the configuration image ends (R190). -/
inductive ReadEnd where
  | failed
  | completed (image : List Byte)
  deriving DecidableEq, Repr

/-- A change of the drum encoder's two channels (R3, R23). -/
inductive EncoderChange where
  | forward | reverse | illegal
  deriving DecidableEq, Repr

/-- How a transmission attempt ends (R180). -/
inductive AttemptEnding where
  | lost | aborted | completed
  deriving DecidableEq, Repr

/-- The commands: one constructor for each row of spec/opcode_table.json, in its order. -/
inductive Instr where
  | powerUp
  | configReadEnd (r : ReadEnd)
  | configReadRetry
  | listenTimerExpiry
  | positionSample
  | encoderEdge (e : EncoderChange)
  | stallTimerExpiry
  | driveRunningChange (on : Bool)
  | startTimerExpiry
  | completionWaitExpiry
  | haltZeroTimeout
  | releaseHoldExpiry
  | modeSelectorChange (normal inspection survey : Bool)
  | inspectionDirection (up down : Bool)
  | surveyRequest
  | resumeRequest (same ahead back : Bool)
  | cancel
  | faultReset
  | alarmFrame (sender : Nat) (mask : BitVec 4)
  | markerFrame (sender comp age : Nat)
  | stateFrame (sender : Nat) (r : StateReport)
  | callFrame (sender : Nat) (c : CallFrame)
  | answerFrame (sender : Nat) (a : AnswerFrame)
  | announceFrame (sender : Nat) (a : Announce)
  | motionPage (sender : Nat) (p : Page)
  | markerDeliveryMoment
  | frameReceived (raw : RawFrame)
  | frameError
  | resyncEnd
  | attemptStart
  | attemptEnd (e : AttemptEnding)
  | silenceTimeout (node : Nat)
  | motionIntervalExpiry
  | stateIntervalExpiry
  | driveTelegram
  | callTimeout
  | lockTimerExpiry
  | flashTimerExpiry
  | callButton
  | dispatchButton (dest : BitVec 5) (empty men material : Bool)
  | releaseButton
  | relevelButton
  | gateContactChange (closed locked : Bool)
  | stopSwitchChange (on : Bool)
  | shaftWorkSwitchChange (on : Bool)
  | outOfServiceKeyChange (on : Bool)
  | emergencyChange (channel1 channel2 : Bool)
  | landingResetKey
  | loopFault (loop : Which) (microamps : Nat)
  | loopOk (loop : Which) (microamps : Nat)
  | markerPass (loop : Which)
  | passRearm (loop : Which)
  | skipPresentEdge (input : Which)
  | skipPresentLost (input : Which)
  | chuteContactChange (closed : Bool)
  | doorContactChange (closed : Bool)
  | loadingCompleteInput (active : Bool)
  | dumpTimerExpiry
  | skipPointResetKey
  | lossOfSupply
  | startBitReceived
  | interframeSpaceEnd (dominant : Bool)
  deriving DecidableEq, Repr

end Sys2Proof
end

