-- ==== Sys2Proof/Decode.lean ====
section
/-! DEFINITION. The block has no instruction decoder: no row of spec/opcode_table.json gives bits, so no
word spells a command. The bits of frames, images and telegrams are in Machine/Frames.lean,
Machine/Image.lean and Machine/Drive.lean. -/

namespace Sys2Proof

/-- The command that a word of the table spells: none, as every row of the table has an empty field list. -/
def decodeTableWord (_nbits _w : Nat) : Option Instr := none

end Sys2Proof
end

