-- ==== Sys2Proof/Config.lean ====
section
/-! DEFINITION. What the configuration image gives a node (R205), and the fixed times of the manual.
The model needs no free value: the manual states every result its rules compute (see INVENTORY.md). -/

namespace Sys2Proof

/-- One layer of a conveyance's layer table (R5): turns, and µm per turn. -/
structure Layer where
  turns : Nat
  lam : Nat
  deriving DecidableEq, Repr

/-- The conveyance block of the image (R205). -/
structure ConvConfig where
  r : Int
  h : Nat
  z : Int
  g : Nat
  upper : Int
  lower : Int
  layers : List Layer
  deriving DecidableEq, Repr

/-- End-load coefficient and top speed of a load class (R13). -/
structure ClassConfig where
  e : Nat
  top : Nat
  deriving DecidableEq, Repr

/-- A winder's configured values, clamped (R26, R205). -/
structure WinderConfig where
  kind : WinderKind
  comps : Pair Nat
  senseA : Int
  countsPerRev : Nat
  conv : Pair ConvConfig
  classes : List ClassConfig
  maximum : Nat
  aAcc : Nat
  aRet : Nat
  creep : Nat
  creepDist : Nat
  tol : Nat
  tolPct : Nat
  tolFloor : Nat
  relevelWindow : Nat
  inspection : Nat
  survey : Nat
  markerWindow : Nat
  correctionLimit : Nat
  surveyWindow : Nat
  surveyStartWindow : Nat
  passWindow : Nat
  passSpeed : Nat
  startWindow : Nat
  reactions : PerFault Reaction
  deriving DecidableEq, Repr

/-- A served compartment of a shaft point (R137, R162). -/
structure ServedConfig where
  comp : Nat
  hasLanding : Bool
  servesMen : Bool
  fitted : Bool
  stop : Int
  down : Int
  up : Int
  deriving DecidableEq, Repr

/-- A shaft point's configured values, clamped (R137, R162, R205). -/
structure PointConfig where
  level : Nat
  first : ServedConfig
  second : Option ServedConfig
  shaftAlarm : Bool
  lockWindow : Nat
  crossWindow : Nat
  positionTol : Nat
  dumpWindow : Nat
  half : Nat
  zoneSpeed : Nat
  deriving DecidableEq, Repr

/-- An accepted configuration image (R192). Times are in the image's units of 100 ms. -/
structure NodeConfig where
  role : Role
  node : Nat
  fast : Bool
  stateInterval : Nat
  silenceTimeout : Nat
  callTimeout : Nat
  w : WinderConfig
  p : PointConfig
  deriving DecidableEq, Repr

namespace Config

/-- A conveyance block of zeros, standing in the part of the configuration a role does not have. -/
def noConv : ConvConfig :=
  { r := 0, h := 0, z := 0, g := 0, upper := 0, lower := 1000, layers := [⟨1, 1000000⟩] }

/-- The default reactions of R115. -/
def defaultReactions : PerFault Reaction :=
  { overspeed := .tripLatched, overwind := .tripLatched, overrun := .stop, encoder := .tripLatched
    tracking := .stop, markerMissed := .slow, peerSilent := .slow, gateBreach := .stop
    alarm := .tripLatched, startFail := .stop, lateRestriction := .stop, duplicateNode := .tripLatched }

/-- The winder part of a node that is no winder. -/
def noWinder : WinderConfig :=
  { kind := .service, comps := ⟨1, 2⟩, senseA := 1, countsPerRev := 4096, conv := ⟨noConv, noConv⟩
    classes := [], maximum := 1000, aAcc := 100, aRet := 100, creep := 400, creepDist := 2000, tol := 50
    tolPct := 8, tolFloor := 300, relevelWindow := 500, inspection := 1000, survey := 800
    markerWindow := 500, correctionLimit := 2000, surveyWindow := 1000, surveyStartWindow := 300
    passWindow := 0, passSpeed := 3000, startWindow := 3, reactions := defaultReactions }

/-- The shaft point part of a node that is no shaft point. -/
def noPoint : PointConfig :=
  { level := 0
    first := { comp := 1, hasLanding := false, servesMen := false, fitted := false, stop := 0, down := 0, up := 0 }
    second := none, shaftAlarm := false, lockWindow := 2000, crossWindow := 2000, positionTol := 200
    dumpWindow := 20, half := 0, zoneSpeed := 20 }

/-- What a node that has accepted no image reads where a rule asks for a configured value; no rule of the
manual asks before acceptance (R202). -/
def blank : NodeConfig :=
  { role := .landing, node := 0, fast := false, stateInterval := 10, silenceTimeout := 30, callTimeout := 50
    w := noWinder, p := noPoint }

/-- The layout code of a DZ3140 image (R205). -/
def layoutCode : Nat := 12608

/-- The wait before a failed read is started again, ms (R190). -/
def retryWait : Nat := 10

/-- The position sample's period, ms (R2). -/
def samplePeriod : Nat := 2

/-- The drive port telegram's period, ms (R206). -/
def telegramPeriod : Nat := 2

/-- The stall time, ms (R24). -/
def stallTime : Nat := 500

/-- The release hold, ms (R85). -/
def releaseHold : Nat := 1000

/-- The delivery time of a MARKER from its start bit, ms (R186). -/
def markerDelay : Nat := 6

/-- The MOTION interval while moving, ms (R110). -/
def motionMoving : Nat := 50

/-- The MOTION interval otherwise, ms (R110). -/
def motionResting : Nat := 500

/-- The FAULT lamp's flash after an ignored press or a failed lock, ms (R150, R146). -/
def flashShort : Nat := 1000

/-- The FAULT lamp's flash after REFUSED, DROPPED or NO_ANSWER, ms (R152). -/
def flashLong : Nat := 3000

/-- The age from which a pass is not located, ms (R18). -/
def ageLimit : Nat := 250

/-- The oldest report a cross-check uses, ms (R158). -/
def crossCheckAge : Nat := 1000

/-- The capacity of the position history (R12). -/
def historyDepth : Nat := 128

/-- The capacity of the speed window (R9). -/
def windowDepth : Nat := 10

/-- The capacity of a learned marker table (R67). -/
def learnedDepth : Nat := 32

/-- The capacity of the admitted restrictions (R44). -/
def zoneDepth : Nat := 28

/-- The capacity of the call list (R70). -/
def listDepth : Nat := 16

/-- The capacity of the ANSWER place (R181). -/
def answerDepth : Nat := 8

/-- The capacity of the MARKER place (R181). -/
def markerDepth : Nat := 4

/-- The capacity of the CALL place (R181). -/
def callDepth : Nat := 2

/-- The most resumes of one record (R124). -/
def resumeLimit : Nat := 3

/-- The clamp of the curve function, mm/s (R29). -/
def curveLimit : Nat := 20000

/-- The distance within its limit at which an overwind memory returns to NONE, mm (R108). -/
def overwindClear : Int := 1000

/-- The start travel, mm (R97, R61). -/
def startTravel : Int := 100

end Config

end Sys2Proof
end

