-- ==== Sys2Proof/WellFormed.lean ====
section
/-! DEFINITION. Which frames and commands name something the hardware can meet: node numbers, compartments,
levels and field values within the ranges of R176, R185 and R204. -/

namespace Sys2Proof

namespace WellFormed

/-- A node number of the shaft line (R185, R191). -/
def nodeOk (n : Nat) : Bool := 1 ≤ n && n ≤ 40

/-- A compartment (R204). -/
def compOk (c : Nat) : Bool := 1 ≤ c && c ≤ 4

/-- A level (R204). -/
def levelOk (l : Nat) : Bool := l ≤ 31

/-- A value a 24-bit depth field holds beside the unknown marker (R204). -/
def depthFits (x : Int) : Bool := -8388607 ≤ x && x ≤ 8388607

/-- A value a velocity field holds (R204). -/
def speedFits (v : Int) : Bool := -32767 ≤ v && v ≤ 32767

/-- A landing's STATE content that its layout can carry (R204). -/
def landingReport (r : LandingReport) : Bool :=
  levelOk r.level && r.state != .starting && compOk r.first.comp
    && r.second.all (fun c => compOk c.comp)

/-- A skip point's STATE content that its layout can carry (R204). -/
def skipReport (r : SkipReport) : Bool :=
  r.state != .starting && compOk r.first.comp && r.second.all (fun c => compOk c.comp)

/-- STATE content its layout can carry. -/
def stateReport : StateReport → Bool
  | .landing r => landingReport r
  | .skip r => skipReport r

/-- CALL content its layout can carry. -/
def callFrame (c : CallFrame) : Bool :=
  c.target < 256 &&
    match c.ask with
    | .nothing => true
    | .fetch l => levelOk l
    | .dispatch l d _ => levelOk l && levelOk d
    | .relevel l => levelOk l
    | .ready comp => compOk comp

/-- ANSWER content its layout can carry. -/
def answerFrame (a : AnswerFrame) : Bool :=
  a.target < 256 &&
    match a.reply with
    | .accepted p q => p < 256 && q < 65536
    | .merged q => q < 65536
    | .refused _ => true
    | .dropped q => q < 65536

/-- A shaft point's ANNOUNCE content its layout can carry. -/
def pointAnnounce (p : PointAnnounce) : Bool :=
  (match p.point with | .landing l => levelOk l | _ => true)
    && compOk p.comp && depthFits p.stop && depthFits p.down && depthFits p.up
    && p.half < 256 && p.zoneSpeed < 256
    && (match p.point with | .landing _ => true | _ => p.half == 0 && p.zoneSpeed == 0)

/-- ANNOUNCE content its layout can carry. -/
def announce : Announce → Bool
  | .point p => pointAnnounce p
  | .winder w => compOk w.comp

/-- A motion page its layout can carry: FAULTED never appears in a frame (R204). -/
def motionPage (p : MotionPage) : Bool :=
  p.wind != .faulted && p.number < 256
    && p.x.a.all depthFits && p.x.b.all depthFits && speedFits p.v.a && speedFits p.v.b

/-- A status page its layout can carry. -/
def statusPage (p : StatusPage) : Bool :=
  p.wind != .faulted && p.number < 256 && compOk p.first && compOk p.second && p.count < 4
    && p.ceiling < 32768 && p.refSpeed < 32768 && p.parked.all levelOk
    && p.custodian < 64 && p.last < 64 && p.origin < 64 && p.failNode < 64
    && p.seq < 65536 && levelOk p.target

/-- A page its layout can carry. -/
def page : Page → Bool
  | .motion p => motionPage p
  | .status p => statusPage p

/-- A payload its layout can carry. -/
def payload : Payload → Bool
  | .alarm _ => true
  | .marker comp age => compOk comp && age < 256
  | .page p => page p
  | .state r => stateReport r
  | .call c => callFrame c
  | .answer a => answerFrame a
  | .announce a => announce a
  | .heardOnly => false

/-- A frame whose sender is a node number and whose content its layout can carry. -/
def frame (f : Frame) : Bool := nodeOk f.sender && payload f.payload

/-- A raw frame that ends at its end delimiter: as many data bytes as its length field says, at most 16
(R176, R184). -/
def rawFrame (r : RawFrame) : Bool := r.length.toNat ≤ 16 && r.data.length == r.length.toNat

/-- A configuration image has bytes 0 to 207 (R205). -/
def readEnd : ReadEnd → Bool
  | .failed => true
  | .completed image => image.length == 208

end WellFormed

/-- A command that names something the hardware can meet. -/
def Instr.wf : Instr → Bool
  | .powerUp => true
  | .configReadEnd r => WellFormed.readEnd r
  | .configReadRetry => true
  | .listenTimerExpiry => true
  | .positionSample => true
  | .encoderEdge _ => true
  | .stallTimerExpiry => true
  | .driveRunningChange _ => true
  | .startTimerExpiry => true
  | .completionWaitExpiry => true
  | .haltZeroTimeout => true
  | .releaseHoldExpiry => true
  | .modeSelectorChange _ _ _ => true
  | .inspectionDirection _ _ => true
  | .surveyRequest => true
  | .resumeRequest _ _ _ => true
  | .cancel => true
  | .faultReset => true
  | .alarmFrame n mask => WellFormed.frame ⟨n, .alarm mask⟩
  | .markerFrame n comp age => WellFormed.frame ⟨n, .marker comp age⟩
  | .stateFrame n r => WellFormed.frame ⟨n, .state r⟩
  | .callFrame n c => WellFormed.frame ⟨n, .call c⟩
  | .answerFrame n a => WellFormed.frame ⟨n, .answer a⟩
  | .announceFrame n a => WellFormed.frame ⟨n, .announce a⟩
  | .motionPage n p => WellFormed.frame ⟨n, .page p⟩
  | .markerDeliveryMoment => true
  | .frameReceived raw => WellFormed.rawFrame raw
  | .frameError => true
  | .resyncEnd => true
  | .attemptStart => true
  | .attemptEnd _ => true
  | .silenceTimeout n => WellFormed.nodeOk n
  | .motionIntervalExpiry => true
  | .stateIntervalExpiry => true
  | .driveTelegram => true
  | .callTimeout => true
  | .lockTimerExpiry => true
  | .flashTimerExpiry => true
  | .callButton => true
  | .dispatchButton _ _ _ _ => true
  | .releaseButton => true
  | .relevelButton => true
  | .gateContactChange _ _ => true
  | .stopSwitchChange _ => true
  | .shaftWorkSwitchChange _ => true
  | .outOfServiceKeyChange _ => true
  | .emergencyChange _ _ => true
  | .landingResetKey => true
  | .loopFault _ _ => true
  | .loopOk _ _ => true
  | .markerPass _ => true
  | .passRearm _ => true
  | .skipPresentEdge _ => true
  | .skipPresentLost _ => true
  | .chuteContactChange _ => true
  | .doorContactChange _ => true
  | .loadingCompleteInput _ => true
  | .dumpTimerExpiry => true
  | .skipPointResetKey => true
  | .lossOfSupply => true
  | .startBitReceived => true
  | .interframeSpaceEnd _ => true

end Sys2Proof
end

