-- ==== Sys2Proof/Machine/State.lean ====
section
/-! DEFINITION. The state of a DZ3140 node as plain data, and the state right after power-up. Every item the
manual lists as held is here, under the role that holds it. -/

namespace Sys2Proof.Machine

open Sys2Proof

/-- No command makes this block stop with a fault: FAULTED and TRIPPED are states of the machine (R190, R119).
The type is closed and has no constructor, so that no meaning can answer with one. -/
inductive Fault where
  deriving DecidableEq, Repr

/-- Why a command has no meaning. -/
inductive Refusal where
  /-- Raised by exec alone for a command that is not modelled. Safe. No arm raises it in this model. -/
  | notModelled (mnemonic : String)
  deriving DecidableEq, Repr

/-! ## The node's steps from power-up (chapter 10) -/

/-- Where the node is between power-up and power-up: without supply, reading its image, in the listen period,
running, or in FAULTED. -/
inductive NodeStep where
  | off | config | listen | run | faulted
  deriving DecidableEq, Repr

/-- The configuration loader (R190). -/
structure Loader where
  reading : Bool
  retry : Timer
  failures : Nat
  badSums : Nat
  deriving DecidableEq, Repr

/-! ## The line controller (R178) -/

/-- The modes of the line controller. -/
inductive LineMode where
  | disabled | receiveOnly | active
  deriving DecidableEq, Repr

/-- The line activity. -/
inductive Activity where
  | idle | sending | receiving | resync
  deriving DecidableEq, Repr

/-- A report: both pages filled with one view (R177). -/
structure Report where
  motion : MotionPage
  status : StatusPage
  deriving DecidableEq, Repr

/-- The winder's latest report and the note of which of its pages have completed (R183). -/
structure SentReport where
  report : Report
  motionDone : Bool
  statusDone : Bool
  deriving DecidableEq, Repr

/-- What waits while the periodic slot's frame is on the line (R182): a winder's report or a point's STATE. -/
inductive PendingPeriodic where
  | report (r : Report)
  | state (f : StateReport)
  deriving DecidableEq, Repr

/-- A queued pass: its compartment, and the moment of its edge (R157). -/
structure QueuedMarker where
  comp : Nat
  edge : Nat
  deriving DecidableEq, Repr

/-- The places of the transmit queue (R181). The frame an attempt carries keeps its place (R182); in the
MARKER, CALL and ANSWER places it is the head. `announceFirst` tells which ANNOUNCE was queued earlier. -/
structure TransmitQueue where
  periodic : Option Payload
  alarm : Option (BitVec 4)
  announce : Pair (Option Announce)
  announceFirst : Which
  marker : List QueuedMarker
  call : List CallFrame
  answer : List AnswerFrame
  deriving DecidableEq, Repr

/-- The places of the transmit queue, to say which one an attempt's frame stands in. -/
inductive Place where
  | periodic | alarm | announce (w : Which) | marker | call | answer
  deriving DecidableEq, Repr

/-- The own frame on the line: its place, content, bits, and the moment of its start bit (R178, R179). -/
structure Attempt where
  place : Place
  frame : Frame
  bits : RawFrame
  startedAt : Nat
  deriving DecidableEq, Repr

/-- A completed MARKER frame awaiting its delivery moment (R186). -/
structure HeldMarker where
  sender : Nat
  comp : Nat
  age : Nat
  due : Nat
  deriving DecidableEq, Repr

/-- The report assembly of one winder node heard (R187). -/
structure Assembly where
  node : Nat
  motion : Option (MotionPage × Nat)
  status : Option StatusPage
  delivered : Option Nat
  deriving DecidableEq, Repr

/-- The line controller. `interframe` marks the space after an end delimiter (R184); `heardOwn` says that a frame with
the node's own number was delivered while the present attempt ran (R189). -/
structure LineController where
  mode : LineMode
  activity : Activity
  interframe : Bool
  queue : TransmitQueue
  attempt : Option Attempt
  pendingPeriodic : Option PendingPeriodic
  pendingAnnounce : Pair (Option Announce)
  heardOwn : Bool
  rxStart : Option Nat
  rxMarkers : List HeldMarker
  reportCounter : Nat
  sent : Option SentReport
  assembly : List Assembly
  deriving DecidableEq, Repr

/-! ## The peer table (R198) -/

/-- The heard state of a peer. -/
inductive Heard where
  | unknown | present | silent
  deriving DecidableEq, Repr

/-- The status of a peer (R199). -/
inductive Status where
  | unknown | present | silent | conflict
  deriving DecidableEq, Repr

/-- The role a peer's frames have given it. -/
inductive PeerRole where
  | none
  | winder (kind : WinderKind) (first second : Option Nat)
  | point (p : PointKind)
  deriving DecidableEq, Repr

/-- A geometry record (R53). -/
structure Geometry where
  point : PointKind
  comp : Nat
  hasLanding : Bool
  servesMen : Bool
  fitted : Bool
  stop : Int
  down : Int
  up : Int
  half : Nat
  zoneSpeed : Nat
  deriving DecidableEq, Repr

/-- A winder's latest delivered report, with its receipt time (R137, R187). -/
structure Motion where
  report : Report
  receivedAt : Nat
  deriving DecidableEq, Repr

/-- The latest view a peer reported. -/
inductive Snapshot where
  | state (r : StateReport)
  | motion (m : Motion)
  deriving DecidableEq, Repr

/-- A peer table entry. The status is formed from `heard` and `conflict` (R199). `fitted` is what the peer's
latest STATE or ANNOUNCE showed of each compartment's marker (R21). -/
structure Peer where
  node : Nat
  heard : Heard
  conflict : Bool
  role : PeerRole
  geometry : List Geometry
  fitted : List (Nat × Bool)
  snapshot : Option Snapshot
  silence : Timer
  deriving DecidableEq, Repr

/-! ## The tracker (R1) -/

/-- The origin (R4). -/
structure Origin where
  n0 : Count
  q : Pair Int
  deriving DecidableEq, Repr

/-- An entry of the position history (R12). -/
structure HistoryEntry where
  x : Option (Pair Int)
  dir : Pair Dir
  deriving DecidableEq, Repr

/-- An entry of a learned marker table (R67). -/
structure Learned where
  node : Nat
  down : Int
  up : Int
  stop : Int
  deriving DecidableEq, Repr

/-- A marker expectation: the point, its learned depth for the direction of travel, and whether armed (R21, R22). -/
structure Expectation where
  node : Nat
  depth : Int
  armed : Bool
  deriving DecidableEq, Repr

/-- The conveyance tracker. `nSample` is N at the latest position sample, and `clsSample` the classes that it used
(R16). `window` and `history` have their newest entry first. `stall` is the running stall timer, `stallRaised` its
ENCODER condition, and `stallSeen` says that a stall has been raised since the latest sample. `negative` is the ENCODER
condition of R6. -/
structure Tracker where
  n : Count
  nSample : Count
  origin : Option Origin
  window : List Count
  u : Pair (Option Int)
  paid : Pair (Option Nat)
  stretch : Pair (Option Nat)
  k : Pair Int
  x : Pair (Option Int)
  v : Pair Int
  dir : Pair Dir
  cls : Pair LoadClass
  clsSample : Pair LoadClass
  history : List HistoryEntry
  learned : Pair (List Learned)
  validated : Bool
  expect : Pair (Option Expectation)
  stall : Option Nat
  stallRaised : Bool
  stallSeen : Bool
  negative : Bool
  deriving DecidableEq, Repr

/-! ## The envelope unit (R27) -/

/-- A latched drum count with a speed (R32, R40, R41). -/
structure Latch where
  n : Count
  v0 : Nat
  deriving DecidableEq, Repr

/-- A cap in force (R35, R36). `flat` caps apply at their value; `kept` is a SLOW cap that goes when the wind state leaves
the governing states, because an event-like kind has raised or kept it (R35), or that was raised outside them and lapses
after its sample (R117). -/
structure Cap where
  value : Nat
  n : Count
  v0 : Nat
  flat : Bool
  kept : Bool
  deriving DecidableEq, Repr

/-- The ceiling's terms at the latest sample; an absent term is `none` (section 2.3). -/
structure Terms where
  top : Option Nat
  cap : Option Nat
  acc : Option Nat
  stop : Option Nat
  limit : Option Nat
  zone : Option Nat
  passing : Option Nat
  halt : Option Nat
  runDown : Option Nat
  deriving DecidableEq, Repr

/-- An admitted slow zone (R37, R44). -/
structure Zone where
  node : Nat
  comp : Nat
  centre : Int
  upper : Int
  lower : Int
  speed : Nat
  deriving DecidableEq, Repr

/-- A restriction that the acceleration start looks at when it is left out (R32): the cap term, whichever sources it is
taken from (R35, R45), an admitted zone by its landing and compartment, or the passing term. -/
inductive Restriction where
  | cap
  | zone (node comp : Nat)
  | passing
  deriving DecidableEq, Repr

/-- The envelope unit. `applied` are the restrictions that the latest sample's ceiling counted (R32). `shownSpeed` and
`shownDir` are the reference as the latest sample set it, which MOTION carries (R46, R111); a PERMIT withdrawn between
samples zeroes `refSpeed` and `refDir` alone. A run-down latch of `none` is to be taken at the next sample outside the
governing states (R41). -/
structure Envelope where
  ceiling : Nat
  terms : Terms
  refSpeed : Nat
  refDir : Dir
  shownSpeed : Nat
  shownDir : Dir
  acc : Option Latch
  capMode : Option Cap
  capResumed : Option Cap
  capSlow : Option Cap
  halt : Option Latch
  runDown : Option Latch
  zones : List Zone
  applied : List Restriction
  completion : Bool
  phase : Phase
  deriving DecidableEq, Repr

/-! ## The wind sequencer -/

/-- A list entry (R70). `mark` orders the dropping marks; `none` is no mark. -/
structure Call where
  kind : CallKind
  origin : Nat
  level : Nat
  comp : Nat
  dest : Option Nat
  cls : Option LoadClass
  seq : Nat
  mark : Option Nat
  deriving DecidableEq, Repr

/-- The kinds of leg (R91). -/
inductive LegKind where
  | call | pair | resume
  deriving DecidableEq, Repr

/-- A leg: its kind, A's direction, the latched target depth of each target conveyance, and the travel
R97 asks of it, latched at its first sample in PREPARING. -/
structure Leg where
  kind : LegKind
  dir : Dir
  target : Pair (Option Int)
  need : Option Int
  deriving DecidableEq, Repr

/-- The cause of a suspended wind (R124). -/
inductive Cause where
  | fault (k : FaultKind)
  | node (n : Nat)
  | driveLost
  | selector
  deriving DecidableEq, Repr

/-- A resume target (R124): a level, or for each skip its skip point. -/
inductive ResumeTarget where
  | level (l : Nat)
  | points (p : Pair Nat)
  deriving DecidableEq, Repr

/-- A MOVING record's fields beside those of every record (R124). -/
structure MovingRecord where
  calls : List Call
  dir : Dir
  target : ResumeTarget
  count : Nat
  inProgress : Bool
  deriving DecidableEq, Repr

/-- A PARKED record's fields beside those of every record (R124). -/
structure ParkedRecord where
  level : Nat
  custodian : Nat
  deriving DecidableEq, Repr

/-- The two kinds of record. -/
inductive RecordKind where
  | moving (m : MovingRecord)
  | parked (p : ParkedRecord)
  deriving DecidableEq, Repr

/-- The suspended-wind record (R124). A PARKED record's phase at capture is PARKED, which its kind says; its
`phase` field is then NONE. -/
structure Record where
  cause : Cause
  phase : Phase
  x : Pair (Option Int)
  v : Pair Int
  kind : RecordKind
  deriving DecidableEq, Repr

/-- A point of the survey with its announced depths as taken at survey start (R56, R60). -/
structure SurveyPoint where
  node : Nat
  stop : Int
  down : Int
  up : Int
  deriving DecidableEq, Repr

/-- The survey state (R56). A pointer at or past the end of its list is exhausted. -/
structure Survey where
  outcome : SurveyOutcome
  failing : Option (Nat × Conv)
  start : Pair (Option SurveyPoint)
  bottom : Option SurveyPoint
  lists : Pair (List SurveyPoint)
  pointer : Pair Nat
  deriving DecidableEq, Repr

/-- The overwind memory of a conveyance (R91, R108). -/
inductive OverwindMemory where
  | none | upper | lower
  deriving DecidableEq, Repr

/-- The positions of the mode selector (R92). -/
inductive ModePosition where
  | normal | inspection | survey | invalid
  deriving DecidableEq, Repr

/-- The positions of the resume selector (R92). -/
inductive ResumePosition where
  | same | nearestAhead | nearestBack | invalid
  deriving DecidableEq, Repr

/-- The wind sequencer's state: R70, R85, R91, R124. `stopCause` is the cause kept at entry to STOPPING
(R103), `haltZero` the time the halt term has been 0 (R104), `parked` the parked level of the latest sample
with its qualifying landing (R69), and `markCount` orders the dropping marks (R77). -/
structure Sequencer where
  wind : WindState
  leg : Option Leg
  startTimer : Timer
  completionWait : Timer
  haltZero : Timer
  lockout : Bool
  overwind : Pair OverwindMemory
  permit : Bool
  stopCause : Option Cause
  list : List Call
  seqCounter : Nat
  markCount : Nat
  slot : List Call
  custodian : Option Nat
  last : Option Nat
  releaseHold : Timer
  restoration : Option (Nat × Nat)
  parked : Option (Nat × Nat)
  record : Option Record
  survey : Survey
  motionTimer : Timer
  deriving DecidableEq, Repr

/-- The refusal indication's reasons (R129). -/
inductive ResumeReason where
  | selector | count | fault | cause | conditions | noTarget
  deriving DecidableEq, Repr

/-- The refusal indication of the panel status pattern (R135). -/
inductive RefusalShown where
  | none | survey | resume (r : ResumeReason) | cancel
  deriving DecidableEq, Repr

/-- The winder driver's panel and the drive feedback (R92), the refusal indication (R135), and the direction
last held in INSPECTION since PERMIT rose (R107). -/
structure Panel where
  selector : ModePosition
  up : Input
  down : Input
  driveRunning : Input
  refusal : RefusalShown
  heldDir : Dir
  deriving DecidableEq, Repr

/-! ## The fault supervisor (R113) -/

/-- The state of a fault kind (R116). -/
inductive FaultState where
  | clear | active | held
  deriving DecidableEq, Repr

/-- A fault kind's condition and state. -/
structure KindState where
  present : Bool
  state : FaultState
  deriving DecidableEq, Repr

/-- The trip cause (R113). -/
inductive TripCause where
  | powerUp
  | fault (k : FaultKind)
  deriving DecidableEq, Repr

/-- The fault supervisor. `raised` are the event-like conditions raised since the latest sample, `atSample`
those present at it (R114); `overwind`, `overrun` and `duplicate` are the lasting conditions that their
sources last found; `trip` is the TRIP output after the latest event (R118). -/
structure Supervisor where
  kinds : PerFault KindState
  raised : PerFault Bool
  atSample : PerFault Bool
  overwind : Bool
  overrun : Bool
  duplicate : Bool
  powerUpTrip : Bool
  alarmSet : List Nat
  tripCause : TripCause
  trip : Bool
  deriving DecidableEq, Repr

/-- The drive port (R48, R206): the counter of the next telegram, the latest telegram sent, and its timer. -/
structure DrivePort where
  counter : Byte
  telegram : List Byte
  timer : Timer
  deriving DecidableEq, Repr

/-- Everything a WINDER holds. -/
structure Winder where
  tr : Tracker
  env : Envelope
  seq : Sequencer
  flt : Supervisor
  panel : Panel
  drive : DrivePort
  sampleTimer : Timer
  deriving DecidableEq, Repr

/-! ## The landing (R137) -/

/-- The status of a landing's call record (R151, R152). -/
inductive CallStatus where
  | waiting | accepted | done | refused | dropped | noAnswer
  deriving DecidableEq, Repr

/-- The service mark of an ACCEPTED call record (R153). -/
inductive ServiceMark where
  | none | inService | suspended | returned
  deriving DecidableEq, Repr

/-- A landing's call record. -/
structure LandingCall where
  kind : CallKind
  level : Nat
  dest : Option (Nat × LoadClass)
  status : CallStatus
  seq : Option Nat
  reason : Option Reason
  mark : ServiceMark
  suspendedSeen : Bool
  deriving DecidableEq, Repr

/-- The class of a marker loop's current (R156). -/
inductive LoopClass where
  | opened | clear | active | short
  deriving DecidableEq, Repr

/-- A marker loop: its class, whether it is faulty, and whether a pass is armed (R156, R157). -/
structure MarkerLoop where
  cls : LoopClass
  faulty : Bool
  armed : Bool
  deriving DecidableEq, Repr

/-- Everything a LANDING holds. -/
structure Landing where
  state : LandingState
  gateClosed : Input
  gateLocked : Input
  release : Bool
  lockTimer : Timer
  pendingDispatch : Option (Nat × LoadClass)
  call : Option LandingCall
  callTimer : Timer
  breach : Bool
  lockFail : Bool
  doubt : Pair Bool
  loops : Pair MarkerLoop
  stateTimer : Timer
  flash : Timer
  stopSwitch : Input
  workSwitch : Input
  outKey : Input
  emergency1 : Input
  emergency2 : Input
  deriving DecidableEq, Repr

/-! ## The skip point (R162) -/

/-- The status of a READY call record: WAITING at its posting (R168), and after an answer as the model has it
(DESIGN CHOICE, log 54). -/
inductive ReadyStatus where
  | waiting | accepted | refused
  deriving DecidableEq, Repr

/-- A skip point's READY call record. -/
structure ReadyCall where
  comp : Nat
  status : ReadyStatus
  seq : Option Nat
  deriving DecidableEq, Repr

/-- Everything a LOADER or TIPPER holds. `closed` is the chute at a loader and the door at a tipper. -/
structure SkipPoint where
  state : PointState
  working : Option Which
  posted : Bool
  mark : Pair Bool
  present : Pair Bool
  closed : Input
  complete : Input
  loadPermit : Bool
  dumpTimer : Timer
  chuteHold : Bool
  doorHold : Bool
  doorStuck : Bool
  skipLost : Bool
  unready : Bool
  call : Option ReadyCall
  callTimer : Timer
  stateTimer : Timer
  deriving DecidableEq, Repr

/-! ## Output pins (R207) -/

/-- How a lamp stands. -/
inductive Lamp where
  | off | steady | flashing
  deriving DecidableEq, Repr

/-- The output lines and lamps, by what they show; `outputPins` gives the pins of each role (R207). `trip` is true while TRIP is asserted, which is the line without energy (R118). -/
structure Pins where
  permit : Bool
  trip : Bool
  gateRelease : Bool
  loadPermit : Bool
  lampWait : Lamp
  lampAccepted : Lamp
  lampCageHere : Lamp
  lampFault : Lamp
  deriving DecidableEq, Repr

/-! ## The node -/

/-- The node's state: the queue of waiting commands, the clock in ms since power-up (the model's own), and
what the manual gives the node. -/
structure State where
  pending : List Instr
  clock : Nat
  step : NodeStep
  loader : Loader
  cfg : Option NodeConfig
  listen : Timer
  line : LineController
  peers : List Peer
  w : Winder
  l : Landing
  k : SkipPoint
  pins : Pins
  deriving DecidableEq, Repr

/-- The accepted configuration, or zeros before acceptance, when no rule reads it. -/
def State.config (s : State) : NodeConfig := s.cfg.getD Config.blank

/-! ## Power-up values -/

namespace PowerUp

/-- The loader with a read just started (R190). -/
def loader : Loader := { reading := true, retry := none, failures := 0, badSums := 0 }

/-- An empty transmit queue (R178). -/
def queue : TransmitQueue :=
  { periodic := none, alarm := none, announce := ⟨none, none⟩, announceFirst := .first
    marker := [], call := [], answer := [] }

/-- The line controller after power-up (R178). -/
def line : LineController :=
  { mode := .disabled, activity := .resync, interframe := false, queue := queue, attempt := none
    pendingPeriodic := none, pendingAnnounce := ⟨none, none⟩, heardOwn := false, rxStart := none, rxMarkers := []
    reportCounter := 0, sent := none, assembly := [] }

/-- The tracker after power-up (R1). -/
def tracker : Tracker :=
  { n := 0, nSample := 0, origin := none, window := [], u := ⟨none, none⟩, paid := ⟨none, none⟩
    stretch := ⟨none, none⟩, k := ⟨0, 0⟩, x := ⟨none, none⟩, v := ⟨0, 0⟩, dir := ⟨.none, .none⟩
    cls := ⟨.unknown, .unknown⟩, clsSample := ⟨.unknown, .unknown⟩, history := [], learned := ⟨[], []⟩, validated := false
    expect := ⟨none, none⟩, stall := none, stallRaised := false, stallSeen := false, negative := false }

/-- No terms. -/
def terms : Terms :=
  { top := none, cap := none, acc := none, stop := none, limit := none, zone := none, passing := none
    halt := none, runDown := none }

/-- The envelope unit after power-up (R27). -/
def envelope : Envelope :=
  { ceiling := 0, terms := terms, refSpeed := 0, refDir := .none, shownSpeed := 0, shownDir := .none, acc := none
    capMode := none, capResumed := none, capSlow := none, halt := none, runDown := some ⟨0, 0⟩, zones := [], applied := []
    completion := false, phase := .none }

/-- The survey state after power-up (R56). -/
def survey : Survey :=
  { outcome := .none, failing := none, start := ⟨none, none⟩, bottom := none, lists := ⟨[], []⟩
    pointer := ⟨0, 0⟩ }

/-- The wind sequencer after power-up (R70, R85, R91, R124). -/
def sequencer : Sequencer :=
  { wind := .starting, leg := none, startTimer := none, completionWait := none, haltZero := none
    lockout := false, overwind := ⟨.none, .none⟩, permit := false, stopCause := none, list := []
    seqCounter := 1, markCount := 0, slot := [], custodian := none, last := none, releaseHold := none
    restoration := none, parked := none, record := none, survey := survey, motionTimer := none }

/-- One value for every fault kind. -/
def all {α : Type} (x : α) : PerFault α := ⟨x, x, x, x, x, x, x, x, x, x, x, x⟩

/-- The fault supervisor after power-up (R113): the power-up trip set and TRIP asserted (R118). -/
def supervisor : Supervisor :=
  { kinds := all ⟨false, .clear⟩, raised := all false, atSample := all false, overwind := false
    overrun := false, duplicate := false, powerUpTrip := true, alarmSet := [], tripCause := .powerUp
    trip := true }

/-- The panel after power-up: inputs not yet qualified (R202), no refusal shown (R135). -/
def panel : Panel :=
  { selector := .invalid, up := none, down := none, driveRunning := none, refusal := .none, heldDir := .none }

/-- The drive port after power-up (R48). The counter's first value is a DESIGN CHOICE (log 24). -/
def drive : DrivePort := { counter := 0, telegram := [], timer := some Config.telegramPeriod }

/-- The winder's items after power-up. -/
def winder : Winder :=
  { tr := tracker, env := envelope, seq := sequencer, flt := supervisor, panel := panel, drive := drive
    sampleTimer := none }

/-- A marker loop after power-up: OK and armed (R137); its class is a DESIGN CHOICE (log 24). -/
def markerLoop : MarkerLoop := { cls := .clear, faulty := false, armed := true }

/-- The landing's items after power-up (R137). -/
def landing : Landing :=
  { state := .starting, gateClosed := none, gateLocked := none, release := false, lockTimer := none
    pendingDispatch := none, call := none, callTimer := none, breach := false, lockFail := false
    doubt := ⟨false, false⟩, loops := ⟨markerLoop, markerLoop⟩, stateTimer := none, flash := none
    stopSwitch := none, workSwitch := none, outKey := none, emergency1 := none, emergency2 := none }

/-- The skip point's items after power-up (R162). -/
def skipPoint : SkipPoint :=
  { state := .starting, working := none, posted := false, mark := ⟨false, false⟩
    present := ⟨false, false⟩, closed := none, complete := none, loadPermit := false, dumpTimer := none
    chuteHold := false, doorHold := false, doorStuck := false, skipLost := false, unready := false
    call := none, callTimer := none, stateTimer := none }

/-- The rest levels of the outputs, every lamp off (R202, R193). -/
def pins : Pins :=
  { permit := false, trip := true, gateRelease := false, loadPermit := false, lampWait := .off
    lampAccepted := .off, lampCageHere := .off, lampFault := .off }

end PowerUp

/-- The node right after power-up (R202), its configuration read started (R190), with no command waiting. -/
def State.reset : State :=
  { pending := [], clock := 0, step := .config, loader := PowerUp.loader, cfg := none, listen := none
    line := PowerUp.line, peers := [], w := PowerUp.winder, l := PowerUp.landing, k := PowerUp.skipPoint
    pins := PowerUp.pins }

end Sys2Proof.Machine
end

