-- ==== Sys2Proof/Machine/Ops.lean ====
section
/-! DEFINITION. Named operations over pairs, fault kinds, lists, drum counts, timers, the peer table and the
output of telegrams: what the meanings of every family share. -/

namespace Sys2Proof

/-! ## Pairs and fault kinds -/

/-- The conveyance's own item. -/
def Pair.get {α : Type} (p : Pair α) : Conv → α
  | .a => p.a
  | .b => p.b

/-- The pair with one conveyance's item replaced. -/
def Pair.set {α : Type} (p : Pair α) (c : Conv) (x : α) : Pair α :=
  match c with
  | .a => { p with a := x }
  | .b => { p with b := x }

/-- The served compartment's own item. -/
def Pair.at {α : Type} (p : Pair α) : Which → α
  | .first => p.a
  | .second => p.b

/-- The pair with one served compartment's item replaced. -/
def Pair.put {α : Type} (p : Pair α) (w : Which) (x : α) : Pair α :=
  match w with
  | .first => { p with a := x }
  | .second => { p with b := x }

/-- The same thing done to both. -/
def Pair.both {α β : Type} (p : Pair α) (f : α → β) : Pair β := ⟨f p.a, f p.b⟩

/-- The other conveyance. -/
def Conv.other : Conv → Conv
  | .a => .b
  | .b => .a

/-- The other served compartment. -/
def Which.other : Which → Which
  | .first => .second
  | .second => .first

/-- The item of a fault kind. -/
def PerFault.get {α : Type} (p : PerFault α) : FaultKind → α
  | .overspeed => p.overspeed
  | .overwind => p.overwind
  | .overrun => p.overrun
  | .encoder => p.encoder
  | .tracking => p.tracking
  | .markerMissed => p.markerMissed
  | .peerSilent => p.peerSilent
  | .gateBreach => p.gateBreach
  | .alarm => p.alarm
  | .startFail => p.startFail
  | .lateRestriction => p.lateRestriction
  | .duplicateNode => p.duplicateNode

/-- One item for each kind. -/
def PerFault.build {α : Type} (f : FaultKind → α) : PerFault α :=
  { overspeed := f .overspeed, overwind := f .overwind, overrun := f .overrun, encoder := f .encoder
    tracking := f .tracking, markerMissed := f .markerMissed, peerSilent := f .peerSilent
    gateBreach := f .gateBreach, alarm := f .alarm, startFail := f .startFail
    lateRestriction := f .lateRestriction, duplicateNode := f .duplicateNode }

/-- The item of one kind replaced. -/
def PerFault.set {α : Type} (p : PerFault α) (k : FaultKind) (x : α) : PerFault α :=
  PerFault.build fun j => if j = k then x else p.get j

/-- The fault kinds in the order of R115's table. -/
def FaultKind.all : List FaultKind :=
  [.overspeed, .overwind, .overrun, .encoder, .tracking, .markerMissed, .peerSilent, .gateBreach
  , .alarm, .startFail, .lateRestriction, .duplicateNode]

/-- The code of a fault kind (R204). -/
def FaultKind.code : FaultKind → Nat
  | .overspeed => 0
  | .overwind => 1
  | .overrun => 2
  | .encoder => 3
  | .tracking => 4
  | .markerMissed => 5
  | .peerSilent => 6
  | .gateBreach => 7
  | .alarm => 8
  | .startFail => 9
  | .lateRestriction => 10
  | .duplicateNode => 11

/-- The direction's sign: +1 for DOWN and −1 for UP (R30, R33); 0 for NONE. -/
def Dir.sign : Dir → Int
  | .none => 0
  | .down => 1
  | .up => -1

/-- The opposite direction. -/
def Dir.opposite : Dir → Dir
  | .none => .none
  | .down => .up
  | .up => .down

namespace Machine

/-! ## Numbers -/

/-- One bit at a time from the highest, the largest r with r² ≤ n. -/
def isqrtFrom : Nat → Nat → Nat → Nat
  | 0, r, _ => r
  | b + 1, r, n => if (r + 2 ^ b) * (r + 2 ^ b) ≤ n then isqrtFrom b (r + 2 ^ b) n else isqrtFrom b r n

/-- The floor integer square root (spec 00, Arithmetic). -/
def isqrt (n : Nat) : Nat := isqrtFrom (n.log2 / 2 + 1) 0 n

/-- The curve function V of R29. -/
def curve (d : Int) (vEnd a : Nat) : Nat :=
  min Config.curveLimit (isqrt (vEnd * vEnd + 2 * a * d.toNat))

/-- The retardation from a latched speed over a distance (R36, R40, R41). -/
def fallFrom (v0 a s : Nat) : Nat := isqrt (v0 * v0 - 2 * a * s)

/-- The difference of two drum counts, modulo 2^32 as a signed value (R3). -/
def countDiff (x y : Count) : Int := (x - y).toInt

/-- The distance between two depths. -/
def apart (x y : Int) : Nat := (x - y).natAbs

/-- The value clamped between two bounds (R192). -/
def clampNat (lo hi x : Nat) : Nat := max lo (min hi x)

/-- The signed value clamped between two bounds (R192, R204). -/
def clampInt (lo hi x : Int) : Int := max lo (min hi x)

/-! ## Inputs and timers -/

/-- Whether a qualified input is on; an input not yet qualified reads as off (log 13). -/
def isOn (i : Input) : Bool := i == some true

/-- One millisecond of a timer. -/
def runTimer (t : Timer) : Timer := t.map (· - 1)

/-- Whether a running timer has run out. -/
def isDue (t : Timer) : Bool := t == some 0

/-- A timer of hundreds of milliseconds (R192). -/
def hundreds (n : Nat) : Timer := some (100 * n)

/-! ## Lists -/

/-- An entry put in its place in a list that rises by a key; among equal keys it goes last. -/
def insertBy {α : Type} (key : α → Int) (x : α) : List α → List α
  | [] => [x]
  | y :: ys => if key x < key y then x :: y :: ys else y :: insertBy key x ys

/-- A list put in order of a key, equal keys keeping their order. -/
def sortBy {α : Type} (key : α → Int) : List α → List α
  | [] => []
  | x :: xs => insertBack key x (sortBy key xs)
where
  /-- An entry put in its place before every entry of an equal key. -/
  insertBack {α : Type} (key : α → Int) (x : α) : List α → List α
    | [] => [x]
    | y :: ys => if key x ≤ key y then x :: y :: ys else y :: insertBack key x ys

/-- The entry that a measure finds least, the earliest of equals. -/
def leastBy {α : Type} (measure : α → Nat) : List α → Option α
  | [] => none
  | x :: xs =>
    match leastBy measure xs with
    | none => some x
    | some y => if measure x ≤ measure y then some x else some y

/-- The head of a list kept and the entry after it removed: the oldest waiting frame of a place whose head is
on the line (R182). -/
def dropSecond {α : Type} : List α → List α
  | [] => []
  | [x] => [x]
  | x :: _ :: rest => x :: rest

/-- A list with a number in it exactly once, in rising order. -/
def addNode (n : Nat) : List Nat → List Nat
  | [] => [n]
  | m :: ms => if n = m then m :: ms else if n < m then n :: m :: ms else m :: addNode n ms

/-! ## The peer table -/

/-- The entry of a node not yet heard (R198). -/
def freshPeer (n : Nat) : Peer :=
  { node := n, heard := .unknown, conflict := false, role := .none, geometry := [], fitted := []
    snapshot := none, silence := none }

/-- A node's entry; one that is not listed is as after power-up. -/
def peerOf (s : State) (n : Nat) : Peer := (s.peers.find? (fun p => p.node == n)).getD (freshPeer n)

/-- An entry put into the table at its node's place, instead of the node's former entry. -/
def putPeer (p : Peer) : List Peer → List Peer
  | [] => [p]
  | q :: qs => if p.node = q.node then p :: qs else if p.node < q.node then p :: q :: qs else q :: putPeer p qs

/-- The state with one entry of its peer table replaced. -/
def setPeer (p : Peer) (s : State) : State := { s with peers := putPeer p s.peers }

/-- The status of an entry (R199). -/
def statusOf (p : Peer) : Status :=
  if p.conflict then .conflict
  else match p.heard with
    | .unknown => .unknown
    | .present => .present
    | .silent => .silent

/-- A peer's geometry record for a compartment. -/
def geometryOf (p : Peer) (comp : Nat) : Option Geometry := p.geometry.find? (fun g => g.comp == comp)

/-- A peer's latest STATE. -/
def stateOf (p : Peer) : Option StateReport :=
  match p.snapshot with
  | some (.state r) => some r
  | _ => none

/-- A peer's latest report. -/
def motionOf (p : Peer) : Option Motion :=
  match p.snapshot with
  | some (.motion m) => some m
  | _ => none

/-! ## Reading a STATE -/

/-- A landing's report of one compartment. -/
def landingComp (r : LandingReport) (comp : Nat) : Option LandingComp :=
  if r.first.comp = comp then some r.first else r.second.filter (fun c => c.comp == comp)

/-- A skip point's report of one compartment. -/
def skipComp (r : SkipReport) (comp : Nat) : Option SkipComp :=
  if r.first.comp = comp then some r.first else r.second.filter (fun c => c.comp == comp)

/-- Whether a STATE shows its point's enclosure closed: gates CLOSED_LOCKED, chute closed, door closed (R94). -/
def enclosureClosed : StateReport → Bool
  | .landing r => r.gate == .closedLocked
  | .skip r => r.closed

/-- Whether a STATE shows STOP_HOLD. -/
def showsHold : StateReport → Bool
  | .landing r => r.stopHold
  | .skip r => r.stopHold

/-- Whether a STATE shows its landing out of service. -/
def showsOutOfService : StateReport → Bool
  | .landing r => r.outOfService
  | .skip _ => false

/-- Whether a STATE shows target present for a compartment. -/
def showsPresent (r : StateReport) (comp : Nat) : Bool :=
  match r with
  | .landing l => (landingComp l comp).any (·.present)
  | .skip k => (skipComp k comp).any (·.present)

/-- The point kind a STATE shows (R200). -/
def pointOfState : StateReport → PointKind
  | .landing r => .landing r.level
  | .skip r => if r.tipper then .tipper else .loader

/-- What a STATE shows of each compartment's marker. -/
def fittedOfState : StateReport → List (Nat × Bool)
  | .landing r => (r.first.comp, r.first.fitted) :: (r.second.map fun c => (c.comp, c.fitted)).toList
  | .skip r => (r.first.comp, r.first.fitted) :: (r.second.map fun c => (c.comp, c.fitted)).toList

/-- Whether a compartment mask covers a compartment (R204): compartment n in bit n − 1. -/
def maskCovers (mask : BitVec 4) (comp : Nat) : Bool := 1 ≤ comp && mask.getLsbD (comp - 1)

/-! ## What the winder's configuration names -/

/-- The winder's configured values. -/
def wcfg (s : State) : WinderConfig := s.config.w

/-- The shaft point's configured values. -/
def pcfg (s : State) : PointConfig := s.config.p

/-- Whether the node has the role, by its accepted image. -/
def hasRole (s : State) (r : Role) : Bool := s.cfg.any (fun c => c.role == r)

/-- Whether the node is a loader or tipper. -/
def isSkipPoint (s : State) : Bool := hasRole s .loader || hasRole s .tipper

/-- Whether the winder is a rock winder. -/
def isRock (s : State) : Bool := (wcfg s).kind == .rock

/-- The conveyance of a compartment (R17). -/
def convOf (s : State) (comp : Nat) : Option Conv :=
  if comp = (wcfg s).comps.a then some .a else if comp = (wcfg s).comps.b then some .b else none

/-- The compartment of a conveyance. -/
def compOf (s : State) (c : Conv) : Nat := (wcfg s).comps.get c

/-- Whether a peer holds a geometry record for either of the winder's compartments (R94). -/
def isMember (s : State) (p : Peer) : Bool :=
  (geometryOf p (wcfg s).comps.a).isSome || (geometryOf p (wcfg s).comps.b).isSome

/-- The shaft points of the winder's compartments, in node order. -/
def members (s : State) : List Peer := s.peers.filter (isMember s)

/-- The landing that announces a level in a compartment; of several, the lowest node (log 29). -/
def landingAt (s : State) (comp level : Nat) : Option Peer :=
  s.peers.find? fun p => (geometryOf p comp).any fun g => g.point == .landing level

/-- The learned entry of a point for a conveyance (R67). -/
def learnedOf (s : State) (c : Conv) (n : Nat) : Option Learned :=
  (s.w.tr.learned.get c).find? (fun e => e.node == n)

/-- The tracker-frame stop depth of a point for a conveyance (R67). -/
def stopDepth (s : State) (c : Conv) (n : Nat) : Option Int := (learnedOf s c n).map (·.stop)

/-- Whether a conveyance stands within the landing tolerance of a depth. -/
def within (s : State) (c : Conv) (t : Int) : Bool :=
  (s.w.tr.x.get c).any fun x => apart x t ≤ (wcfg s).tol

end Machine

end Sys2Proof
end

