-- ==== Sys2Proof/Machine/Operands.lean ====
section
/-! DEFINITION. How field lines are read: the selectors of the panel and of a landing, the held direction of
INSPECTION, and the class of a marker loop's current. -/

namespace Sys2Proof.Machine

open Sys2Proof

/-- The mode selector from its three lines: no position, or more than one, is INVALID (R92). -/
def modePosition (normal inspection survey : Bool) : ModePosition :=
  match normal, inspection, survey with
  | true, false, false => .normal
  | false, true, false => .inspection
  | false, false, true => .survey
  | _, _, _ => .invalid

/-- The resume selector from its three lines: no position, or more than one, is INVALID (R92). -/
def resumePosition (same ahead back : Bool) : ResumePosition :=
  match same, ahead, back with
  | true, false, false => .same
  | false, true, false => .nearestAhead
  | false, false, true => .nearestBack
  | _, _, _ => .invalid

/-- A landing's class selector: no position, or more than one, is INVALID (R139). -/
def classSelector (empty men material : Bool) : Option LoadClass :=
  match empty, men, material with
  | true, false, false => some .empty
  | false, true, false => some .men
  | false, false, true => some .material
  | _, _, _ => none

/-- A's direction from the UP and DOWN inputs: NONE with neither or both (R28). -/
def inputDir (up down : Bool) : Dir :=
  match up, down with
  | true, false => .up
  | false, true => .down
  | _, _ => .none

/-- The band of a loop's current in µA; none between two bands, where the loop keeps the class it last had (R156). -/
def loopBand (microamps : Nat) : Option LoopClass :=
  if microamps < 2000 then some .opened
  else if 3000 ≤ microamps ∧ microamps ≤ 9000 then some .clear
  else if 11000 ≤ microamps ∧ microamps ≤ 20000 then some .active
  else if 24000 < microamps then some .short
  else none

/-- The class of a loop found faulty. Between two bands it was OPEN or SHORT before: the one last known, or else the
one on the current's side (log 12). -/
def faultyClass (microamps : Nat) (last : LoopClass) : LoopClass :=
  match loopBand microamps, last with
  | some k, _ => k
  | none, .opened => .opened
  | none, .short => .short
  | none, _ => if microamps < 10000 then .opened else .short

/-- The class of a loop found sound. Between two bands it was CLEAR or ACTIVE before: the one last known, or else the
one next to the fault it has left (log 12). -/
def soundClass (microamps : Nat) (last : LoopClass) : LoopClass :=
  match loopBand microamps, last with
  | some k, _ => k
  | none, .opened => .clear
  | none, .short => .active
  | none, k => k

/-- The gate state from the two qualified contacts (R140). -/
def gateState (closed locked : Bool) : GateState :=
  match closed, locked with
  | true, true => .closedLocked
  | true, false => .closed
  | false, false => .opened
  | false, true => .unknown

end Sys2Proof.Machine
end

