-- ==== Sys2Proof/Machine/Frames.lean ====
section
/-! DEFINITION. The bits of frames (R176, R177, R204): codes, the layouts written and read, the check, and what
makes a receiver discard a frame (R185, R204). -/

namespace Sys2Proof.Machine

open Sys2Proof

/-! ## Codes used in frames (R204) -/

/-- The code of a role. -/
def roleCode : Role → Nat
  | .winder => 0
  | .landing => 1
  | .loader => 2
  | .tipper => 3

/-- The code of a wind state. -/
def windCode : WindState → Nat
  | .starting => 0
  | .tripped => 1
  | .idle => 2
  | .preparing => 3
  | .running => 4
  | .stopping => 5
  | .suspended => 6
  | .inspection => 7
  | .survey => 8
  | .faulted => 9

/-- The wind state of a code; FAULTED's never appears in a frame. -/
def windOf : Nat → Option WindState
  | 0 => some .starting
  | 1 => some .tripped
  | 2 => some .idle
  | 3 => some .preparing
  | 4 => some .running
  | 5 => some .stopping
  | 6 => some .suspended
  | 7 => some .inspection
  | 8 => some .survey
  | _ => none

/-- The code of a phase. -/
def phaseCode : Phase → Nat
  | .none => 0
  | .accel => 1
  | .full => 2
  | .retard => 3
  | .creep => 4
  | .stopping => 5

/-- The phase of a code. -/
def phaseOf : Nat → Option Phase
  | 0 => some .none
  | 1 => some .accel
  | 2 => some .full
  | 3 => some .retard
  | 4 => some .creep
  | 5 => some .stopping
  | _ => none

/-- The code of a load class. -/
def classCode : LoadClass → Nat
  | .empty => 0
  | .men => 1
  | .material => 2
  | .full => 3
  | .fixed => 4
  | .unknown => 5

/-- The load class of a code. -/
def classOf : Nat → Option LoadClass
  | 0 => some .empty
  | 1 => some .men
  | 2 => some .material
  | 3 => some .full
  | 4 => some .fixed
  | 5 => some .unknown
  | _ => none

/-- The code of a direction. -/
def dirCode : Dir → Nat
  | .none => 0
  | .down => 1
  | .up => 2

/-- The direction of a code. -/
def dirOf : Nat → Option Dir
  | 0 => some .none
  | 1 => some .down
  | 2 => some .up
  | _ => none

/-- The code of a gate state. -/
def gateCode : GateState → Nat
  | .opened => 0
  | .closed => 1
  | .closedLocked => 2
  | .unknown => 3

/-- The gate state of a code. -/
def gateOf : Nat → Option GateState
  | 0 => some .opened
  | 1 => some .closed
  | 2 => some .closedLocked
  | 3 => some .unknown
  | _ => none

/-- The code of a custody field. -/
def custodyCode : CustodyField → Nat
  | .none => 0
  | .claim => 1
  | .held => 2
  | .release => 3

/-- The custody field of a code. -/
def custodyOf : Nat → Option CustodyField
  | 0 => some .none
  | 1 => some .claim
  | 2 => some .held
  | 3 => some .release
  | _ => none

/-- The code of a landing state; STARTING sends no frames. -/
def landingCode : LandingState → Nat
  | .starting => 0
  | .noCage => 0
  | .cageHere => 1
  | .claiming => 2
  | .custody => 3
  | .locking => 4
  | .releasing => 5
  | .outOfService => 6

/-- The landing state of a code. -/
def landingOf : Nat → Option LandingState
  | 0 => some .noCage
  | 1 => some .cageHere
  | 2 => some .claiming
  | 3 => some .custody
  | 4 => some .locking
  | 5 => some .releasing
  | 6 => some .outOfService
  | _ => none

/-- The code of a skip point state; STARTING sends no frames. -/
def pointCode : PointState → Nat
  | .starting => 0
  | .noSkip => 0
  | .inPosition => 1
  | .loading => 2
  | .dumping => 3
  | .doorStuck => 4
  | .loaded => 5
  | .dumped => 6
  | .ready => 7

/-- The skip point state of a code. -/
def pointOf : Nat → Option PointState
  | 0 => some .noSkip
  | 1 => some .inPosition
  | 2 => some .loading
  | 3 => some .dumping
  | 4 => some .doorStuck
  | 5 => some .loaded
  | 6 => some .dumped
  | 7 => some .ready
  | _ => none

/-- The code of a call kind, with 0 for none. -/
def callCode : Option CallKind → Nat
  | none => 0
  | some .fetch => 1
  | some .dispatch => 2
  | some .relevel => 3
  | some .ready => 4

/-- The call kind of a code; the outer `none` is a code not assigned. -/
def callOf : Nat → Option (Option CallKind)
  | 0 => some none
  | 1 => some (some .fetch)
  | 2 => some (some .dispatch)
  | 3 => some (some .relevel)
  | 4 => some (some .ready)
  | _ => none

/-- The code of a reason, with 0 for none. -/
def reasonCode : Option Reason → Nat
  | none => 0
  | some .listFull => 1
  | some .unknownLevel => 2
  | some .levelOutOfService => 3
  | some .notSurveyed => 4
  | some .notCustodian => 5
  | some .sameLevel => 6
  | some .classNotServed => 7
  | some .notNear => 8
  | some .wrongKind => 9

/-- The reason of a code; the outer `none` is a code not assigned. -/
def reasonOf : Nat → Option (Option Reason)
  | 0 => some none
  | 1 => some (some .listFull)
  | 2 => some (some .unknownLevel)
  | 3 => some (some .levelOutOfService)
  | 4 => some (some .notSurveyed)
  | 5 => some (some .notCustodian)
  | 6 => some (some .sameLevel)
  | 7 => some (some .classNotServed)
  | 8 => some (some .notNear)
  | 9 => some (some .wrongKind)
  | _ => none

/-- The code of a survey outcome. -/
def outcomeCode : SurveyOutcome → Nat
  | .none => 0
  | .inProgress => 1
  | .complete => 2
  | .order => 3
  | .missing => 4
  | .deviation => 5
  | .aborted => 6
  | .refMismatch => 7

/-- The survey outcome of a code. -/
def outcomeOf : Nat → Option SurveyOutcome
  | 0 => some .none
  | 1 => some .inProgress
  | 2 => some .complete
  | 3 => some .order
  | 4 => some .missing
  | 5 => some .deviation
  | 6 => some .aborted
  | 7 => some .refMismatch
  | _ => none

/-- The code of a load report. -/
def reportCode : LoadReport → Nat
  | .none => 0
  | .full => 1
  | .empty => 2

/-- The load report of a code. -/
def reportOf : Nat → Option LoadReport
  | 0 => some .none
  | 1 => some .full
  | 2 => some .empty
  | _ => none

/-- The kind code of a payload (section 9.1). A `heardOnly` payload is never sent. -/
def kindCode : Payload → Nat
  | .alarm _ => 0
  | .marker _ _ => 1
  | .page _ => 2
  | .state _ => 3
  | .call _ => 4
  | .answer _ => 5
  | .announce _ => 6
  | .heardOnly => 3

/-- The data length of a kind (R204); kind 7 takes none. -/
def kindLength : Nat → Option Nat
  | 0 => some 1
  | 1 => some 2
  | 2 => some 16
  | 3 => some 5
  | 4 => some 4
  | 5 => some 6
  | 6 => some 14
  | _ => none

/-! ## Fields -/

/-- A bit as a number. -/
def bit (b : Bool) : Nat := if b then 1 else 0

/-- Bit i of a byte's value. -/
def hasBit (n i : Nat) : Bool := n / 2 ^ i % 2 == 1

/-- A signed value as the number its w-bit two's complement field holds (R204). -/
def toField (w : Nat) (x : Int) : Nat := (x % (2 ^ w : Nat)).toNat

/-- The signed value of a w-bit field (R204). -/
def ofField (w n : Nat) : Int := if n < 2 ^ (w - 1) then n else (n : Int) - (2 ^ w : Nat)

/-- The unknown marker of a 24-bit depth field. -/
def unknownDepth : Int := -8388608

/-- A position as its depth field's value. -/
def depthField (x : Option Int) : Nat := toField 24 (x.getD unknownDepth)

/-- The position of a depth field. -/
def depthOf (n : Nat) : Option Int := if ofField 24 n = unknownDepth then none else some (ofField 24 n)

/-- A depth as it is sent: the nearest value that fits its field (R204). -/
def sendDepth (x : Int) : Int := clampInt (-8388607) 8388607 x

/-- A velocity as it is sent: the nearest value that fits its field (R204). -/
def sendSpeed (v : Int) : Int := clampInt (-32767) 32767 v

/-- A field as w bytes, most significant first. -/
def fieldBytes : Nat → Nat → List Nat
  | 0, _ => []
  | w + 1, n => n / 256 ^ w % 256 :: fieldBytes w n

/-- Three bytes as a field's value. -/
def join3 (a b c : Nat) : Nat := a * 65536 + b * 256 + c

/-- Two bytes as a field's value. -/
def join2 (a b : Nat) : Nat := a * 256 + b

/-! ## Layouts written -/

/-- A landing's byte for one served compartment. -/
def landingCompByte (c : LandingComp) : Nat :=
  custodyCode c.custody * 64 + bit c.fitted * 32 + bit c.present * 16 + bit c.doubt * 8 + c.comp

/-- A skip point's byte for one served compartment. -/
def skipCompByte (c : SkipComp) : Nat :=
  reportCode c.report * 64 + bit c.ready * 32 + bit c.present * 16 + bit c.fitted * 8 + c.comp

/-- The data of a STATE frame. -/
def stateBytes : StateReport → List Nat
  | .landing r =>
    [ roleCode .landing * 64 + r.level
    , landingCode r.state * 16 + gateCode r.gate * 4 + bit r.stopHold * 2 + bit r.work
    , bit r.outOfService * 128 + bit r.alarm * 64 + bit r.breach * 32 + bit r.lockFail * 16 + r.mask.toNat
    , landingCompByte r.first
    , match r.second with | some c => landingCompByte c | none => 0 ]
  | .skip r =>
    [ roleCode (if r.tipper then .tipper else .loader) * 64
    , pointCode r.state * 16 + bit r.closed * 8 + bit r.stopHold * 4
    , bit r.chuteHold * 16 + bit r.doorHold * 8 + bit r.doorStuck * 4 + bit r.skipLost * 2 + bit r.unready
    , skipCompByte r.first
    , match r.second with | some c => skipCompByte c | none => 0 ]

/-- The data of a CALL frame. -/
def callBytes (c : CallFrame) : List Nat :=
  match c.ask with
  | .nothing => [c.target, 0, 0, 0]
  | .fetch l => [c.target, callCode (some .fetch) * 32 + l, 0, 0]
  | .dispatch l d cls => [c.target, callCode (some .dispatch) * 32 + l, classCode cls * 32 + d, 0]
  | .relevel l => [c.target, callCode (some .relevel) * 32 + l, 0, 0]
  | .ready comp => [c.target, callCode (some .ready) * 32, 0, comp]

/-- The data of an ANSWER frame. -/
def answerBytes (a : AnswerFrame) : List Nat :=
  match a.reply with
  | .accepted p q => [a.target, callCode a.kind * 32, 0, p] ++ fieldBytes 2 q
  | .merged q => [a.target, callCode a.kind * 32 + 8, 0, 0] ++ fieldBytes 2 q
  | .refused r => [a.target, callCode a.kind * 32 + 16, reasonCode r, 0, 0, 0]
  | .dropped q => [a.target, callCode a.kind * 32 + 24, 0, 0] ++ fieldBytes 2 q

/-- The role code of a point kind. -/
def pointRole : PointKind → Role
  | .landing _ => .landing
  | .loader => .loader
  | .tipper => .tipper

/-- The level field of a point kind: 0 for a skip point. -/
def pointLevel : PointKind → Nat
  | .landing l => l
  | _ => 0

/-- A field of ANNOUNCE that is a landing's; at a skip point it is marked 0, which is sent as 0 and not read (R204). -/
def landingField (p : PointKind) (x : Nat) : Nat :=
  match p with
  | .landing _ => x
  | .loader => 0
  | .tipper => 0

/-- The data of an ANNOUNCE frame. R204 names no content for byte 0 b5 of a shaft point's, for byte 2 b6 to b4 and b0 of a
shaft point's, and for byte 2 b6, b5 and b3 to b1 of a winder's: each is sent as 0, and none is read (DESIGN CHOICE,
log 76). -/
def announceBytes : Announce → List Nat
  | .point p =>
    [ roleCode (pointRole p.point) * 64 + pointLevel p.point, p.comp
    , bit p.start * 128 + bit p.hasLanding * 8 + bit p.servesMen * 4 + bit p.fitted * 2 ]
      ++ fieldBytes 3 (toField 24 p.stop) ++ fieldBytes 3 (toField 24 p.down)
      ++ fieldBytes 3 (toField 24 p.up) ++ [landingField p.point p.half, landingField p.point p.zoneSpeed]
  | .winder w =>
    [ roleCode .winder * 64, w.comp
    , bit w.start * 128 + bit (w.kind == .rock) * 16 + bit w.second ]
      ++ [0, 0, 0] ++ [0, 0, 0] ++ [0, 0, 0] ++ [0, 0]

/-- The data of a motion page. -/
def motionBytes (p : MotionPage) : List Nat :=
  [windCode p.wind, p.number]
    ++ fieldBytes 3 (depthField p.x.a) ++ fieldBytes 2 (toField 16 p.v.a)
    ++ fieldBytes 3 (depthField p.x.b) ++ fieldBytes 2 (toField 16 p.v.b)
    ++ [ dirCode p.dir.a * 64 + dirCode p.dir.b * 16 + bit p.known * 8 + bit p.validated * 4
       , classCode p.cls.a * 16 + classCode p.cls.b, 0, 0 ]

/-- The four 6-bit node numbers of a status page as one 24-bit field. -/
def nodeNumbers (p : StatusPage) : Nat :=
  p.custodian * 262144 + p.last * 4096 + p.origin * 64 + p.failNode

/-- The parked-level field: 63 for none. -/
def parkedField : Option Nat → Nat
  | some l => l
  | none => 63

/-- The data of a status page. -/
def statusBytes (p : StatusPage) : List Nat :=
  [ 128 + phaseCode p.phase * 16 + windCode p.wind, p.number
  , bit (p.kind == .rock) * 128 + (p.first - 1) * 32 + (p.second - 1) * 8 + outcomeCode p.outcome
  , callCode p.call * 32 + bit p.lockout * 16 + bit p.record * 8 + p.count * 2 + bit (p.failConv == .b) ]
    ++ fieldBytes 2 p.ceiling ++ fieldBytes 2 p.refSpeed
    ++ [dirCode p.refDir * 64 + parkedField p.parked]
    ++ fieldBytes 3 (nodeNumbers p) ++ fieldBytes 2 p.seq
    ++ fieldBytes 2 (p.target * 2048 + p.mask.toNat)

/-- The data of a page. -/
def pageBytes : Page → List Nat
  | .motion p => motionBytes p
  | .status p => statusBytes p

/-- The data bytes of a payload, by the layouts of R204. -/
def payloadBytes : Payload → List Nat
  | .alarm mask => [mask.toNat]
  | .marker comp age => [comp, age]
  | .page p => pageBytes p
  | .state r => stateBytes r
  | .call c => callBytes c
  | .answer a => answerBytes a
  | .announce a => announceBytes a
  | .heardOnly => [0, 0, 0, 0, 0]

/-! ## The check -/

/-- A number's w bits, most significant first. -/
def bitsOf (w n : Nat) : List Bool := (List.range w).map fun i => n.testBit (w - 1 - i)

/-- One bit fed to the check register: generator x^16 + x^12 + x^5 + 1 (R204). -/
def checkStep (reg : BitVec 16) (b : Bool) : BitVec 16 :=
  if reg.getLsbD 15 != b then (reg <<< 1) ^^^ 0x1021#16 else reg <<< 1

/-- The check over the priority field, the length and the data, preset to all ones, no inversion (R204). -/
def checkOf (priority : BitVec 9) (length : BitVec 5) (data : List Byte) : BitVec 16 :=
  (bitsOf 9 priority.toNat ++ bitsOf 5 length.toNat ++ data.flatMap fun b => bitsOf 8 b.toNat).foldl
    checkStep 0xFFFF#16

/-- The bits of a frame (R176, R177). -/
def encodeFrame (f : Frame) : RawFrame :=
  let data := (payloadBytes f.payload).map (BitVec.ofNat 8)
  let priority := BitVec.ofNat 9 (kindCode f.payload * 64 + f.sender)
  let length := BitVec.ofNat 5 data.length
  { priority := priority, length := length, data := data, check := checkOf priority length data }

/-! ## Layouts read -/

/-- A landing's compartment byte. -/
def readLandingComp (b : Nat) : Option LandingComp := do
  let custody ← custodyOf (b / 64 % 4)
  pure { comp := b % 8, custody := custody, fitted := hasBit b 5, present := hasBit b 4, doubt := hasBit b 3 }

/-- A skip point's compartment byte. -/
def readSkipComp (b : Nat) : Option SkipComp := do
  let report ← reportOf (b / 64 % 4)
  pure { comp := b % 8, report := report, ready := hasBit b 5, present := hasBit b 4, fitted := hasBit b 3 }

/-- The byte of a second compartment, where a compartment of 0 is none (R204). -/
def readSecond {α : Type} (read : Nat → Option α) (b : Nat) : Option (Option α) :=
  if b % 8 = 0 then some none
  else if WellFormed.compOk (b % 8) then (read b).map some
  else none

/-- The byte of a first compartment. -/
def readFirst {α : Type} (read : Nat → Option α) (b : Nat) : Option α :=
  if WellFormed.compOk (b % 8) then read b else none

/-- A landing's STATE. -/
def readLandingState (b0 b1 b2 b3 b4 : Nat) : Option Payload := do
  let state ← landingOf (b1 / 16 % 16)
  let gate ← gateOf (b1 / 4 % 4)
  let first ← readFirst readLandingComp b3
  let second ← readSecond readLandingComp b4
  pure (.state (.landing
    { level := b0 % 32, state := state, gate := gate, stopHold := hasBit b1 1, work := hasBit b1 0
      outOfService := hasBit b2 7, alarm := hasBit b2 6, breach := hasBit b2 5, lockFail := hasBit b2 4
      mask := BitVec.ofNat 4 (b2 % 16), first := first, second := second }))

/-- A skip point's STATE. -/
def readSkipState (tipper : Bool) (b1 b2 b3 b4 : Nat) : Option Payload := do
  let state ← pointOf (b1 / 16 % 16)
  let first ← readFirst readSkipComp b3
  let second ← readSecond readSkipComp b4
  pure (.state (.skip
    { tipper := tipper, state := state, closed := hasBit b1 3, stopHold := hasBit b1 2
      chuteHold := hasBit b2 4, doorHold := hasBit b2 3, doorStuck := hasBit b2 2, skipLost := hasBit b2 1
      unready := hasBit b2 0, first := first, second := second }))

/-- A STATE frame's data. A STATE whose role code is WINDER is heard and nothing more (log 19). -/
def readState : List Nat → Option Payload
  | [b0, b1, b2, b3, b4] =>
    match b0 / 64 % 4 with
    | 0 => some .heardOnly
    | 1 => readLandingState b0 b1 b2 b3 b4
    | 2 => readSkipState false b1 b2 b3 b4
    | _ => readSkipState true b1 b2 b3 b4
  | _ => none

/-- A CALL frame's data. -/
def readCall : List Nat → Option Payload
  | [b0, b1, b2, b3] => do
    let kind ← callOf (b1 / 32 % 8)
    let ask ← match kind with
      | none => some Ask.nothing
      | some .fetch => some (Ask.fetch (b1 % 32))
      | some .dispatch => (classOf (b2 / 32 % 8)).map (Ask.dispatch (b1 % 32) (b2 % 32))
      | some .relevel => some (Ask.relevel (b1 % 32))
      | some .ready => if WellFormed.compOk b3 then some (Ask.ready b3) else none
    pure (.call { target := b0, ask := ask })
  | _ => none

/-- An ANSWER frame's data. -/
def readAnswer : List Nat → Option Payload
  | [b0, b1, b2, b3, b4, b5] => do
    let kind ← callOf (b1 / 32 % 8)
    let reply ← match b1 / 8 % 4 with
      | 0 => some (Reply.accepted b3 (join2 b4 b5))
      | 1 => some (Reply.merged (join2 b4 b5))
      | 2 => (reasonOf b2).map Reply.refused
      | _ => some (Reply.dropped (join2 b4 b5))
    pure (.answer { target := b0, kind := kind, reply := reply })
  | _ => none

/-- An ANNOUNCE frame's data. -/
def readAnnounce : List Nat → Option Payload
  | [b0, b1, b2, b3, b4, b5, b6, b7, b8, b9, b10, b11, b12, b13] =>
    if WellFormed.compOk b1 then
      let point (p : PointKind) : Payload :=
        .announce (.point
          { point := p, comp := b1, start := hasBit b2 7, hasLanding := hasBit b2 3, servesMen := hasBit b2 2
            fitted := hasBit b2 1, stop := ofField 24 (join3 b3 b4 b5), down := ofField 24 (join3 b6 b7 b8)
            up := ofField 24 (join3 b9 b10 b11), half := landingField p b12, zoneSpeed := landingField p b13 })
      match b0 / 64 % 4 with
      | 0 => some (.announce (.winder
          { kind := if hasBit b2 4 then .rock else .service, comp := b1, start := hasBit b2 7
            second := hasBit b2 0 }))
      | 1 => some (point (.landing (b0 % 32)))
      | 2 => some (point .loader)
      | _ => some (point .tipper)
    else none
  | _ => none

/-- A motion page's data. -/
def readMotion (b0 b1 b2 b3 b4 b5 b6 b7 b8 b9 b10 b11 b12 b13 : Nat) : Option Payload := do
  let wind ← windOf (b0 % 16)
  let dirA ← dirOf (b12 / 64 % 4)
  let dirB ← dirOf (b12 / 16 % 4)
  let clsA ← classOf (b13 / 16 % 16)
  let clsB ← classOf (b13 % 16)
  pure (.page (.motion
    { wind := wind, number := b1
      x := ⟨depthOf (join3 b2 b3 b4), depthOf (join3 b7 b8 b9)⟩
      v := ⟨ofField 16 (join2 b5 b6), ofField 16 (join2 b10 b11)⟩
      dir := ⟨dirA, dirB⟩, known := hasBit b12 3, validated := hasBit b12 2, cls := ⟨clsA, clsB⟩ }))

/-- The parked level of its field: 63 is none, and any other value above 31 is not assigned (R204). -/
def parkedOf (n : Nat) : Option (Option Nat) :=
  if n = 63 then some none else if n ≤ 31 then some (some n) else none

/-- A status page's data. -/
def readStatus (b0 b1 b2 b3 b4 b5 b6 b7 b8 b9 b10 b11 b12 b13 b14 b15 : Nat) : Option Payload := do
  let phase ← phaseOf (b0 / 16 % 8)
  let wind ← windOf (b0 % 16)
  let outcome ← outcomeOf (b2 % 8)
  let call ← callOf (b3 / 32 % 8)
  let refDir ← dirOf (b8 / 64 % 4)
  let parked ← parkedOf (b8 % 64)
  pure (.page (.status
    { phase := phase, wind := wind, number := b1
      kind := if hasBit b2 7 then .rock else .service
      first := b2 / 32 % 4 + 1, second := b2 / 8 % 4 + 1, outcome := outcome, call := call
      lockout := hasBit b3 4, record := hasBit b3 3, count := b3 / 2 % 4
      failConv := if hasBit b3 0 then .b else .a
      ceiling := join2 b4 b5 % 32768, refSpeed := join2 b6 b7 % 32768, refDir := refDir, parked := parked
      custodian := join3 b9 b10 b11 / 262144 % 64, last := join3 b9 b10 b11 / 4096 % 64
      origin := join3 b9 b10 b11 / 64 % 64, failNode := join3 b9 b10 b11 % 64
      seq := join2 b12 b13, target := join2 b14 b15 / 2048 % 32
      mask := BitVec.ofNat 11 (join2 b14 b15 % 2048) }))

/-- A MOTION frame's data: bit 7 of byte 0 tells the page. -/
def readPage : List Nat → Option Payload
  | [b0, b1, b2, b3, b4, b5, b6, b7, b8, b9, b10, b11, b12, b13, b14, b15] =>
    if hasBit b0 7 then readStatus b0 b1 b2 b3 b4 b5 b6 b7 b8 b9 b10 b11 b12 b13 b14 b15
    else readMotion b0 b1 b2 b3 b4 b5 b6 b7 b8 b9 b10 b11 b12 b13
  | _ => none

/-- An ALARM frame's data. -/
def readAlarm : List Nat → Option Payload
  | [b0] => some (.alarm (BitVec.ofNat 4 (b0 % 16)))
  | _ => none

/-- A MARKER frame's data. -/
def readMarker : List Nat → Option Payload
  | [b0, b1] => if WellFormed.compOk b0 then some (.marker b0 b1) else none
  | _ => none

/-- The payload that data of a kind carries, or nothing where R204 has it discarded. -/
def readPayload (kind : Nat) (data : List Nat) : Option Payload :=
  match kind with
  | 0 => readAlarm data
  | 1 => readMarker data
  | 2 => readPage data
  | 3 => readState data
  | 4 => readCall data
  | 5 => readAnswer data
  | 6 => readAnnounce data
  | _ => none

/-- A received frame's content, or nothing where it is discarded: its check, kind, sender or length (R185), or
an unassigned code, compartment or level (R204). -/
def decodeFrame (r : RawFrame) : Option Frame :=
  let kind := r.priority.toNat / 64
  let sender := r.priority.toNat % 64
  if checkOf r.priority r.length r.data = r.check ∧ WellFormed.nodeOk sender = true
      ∧ kindLength kind = some r.length.toNat ∧ r.data.length = r.length.toNat then
    (readPayload kind (r.data.map (·.toNat))).map fun p => { sender := sender, payload := p }
  else none

end Sys2Proof.Machine
end

