-- ==== Sys2Proof/Machine/Line.lean ====
section
/-! DEFINITION. The transmit queue and the line controller (R178 to R183): how each kind of frame is queued, which
frame an attempt takes, and what an attempt's end does to its place. -/

namespace Sys2Proof.Machine

open Sys2Proof

/-- Whether the attempt's frame stands in a place (R182). -/
def onLine (p : Place) (s : State) : Bool := s.line.attempt.any fun a => a.place == p

/-! ## Queuing (R181, R182) -/

/-- A frame put at the tail of a place of limited room: with the room taken, the oldest waiting frame leaves; a
head that is on the line does not wait (R181, R182). -/
def pushBounded {α : Type} (room : Nat) (headOnLine : Bool) (x : α) (q : List α) : List α :=
  if q.length < room then q ++ [x]
  else ((if headOnLine then dropSecond q else q.drop 1) ++ [x])

/-- An ALARM frame queued, unless one is held (R155, R181). -/
def queueAlarm (mask : BitVec 4) (s : State) : State :=
  if s.line.queue.alarm.isSome then s else { s with line.queue.alarm := some mask }

/-- A MARKER frame queued (R157, R181). -/
def queueMarker (m : QueuedMarker) (s : State) : State :=
  { s with
    line.queue.marker := pushBounded Config.markerDepth (onLine .marker s) m s.line.queue.marker }

/-- A CALL frame queued (R181). -/
def queueCall (c : CallFrame) (s : State) : State :=
  { s with line.queue.call := pushBounded Config.callDepth (onLine .call s) c s.line.queue.call }

/-- Whether the ANSWER queue has room for so many more frames (R71, R77, R134). -/
def answerRoom (n : Nat) (s : State) : Bool := s.line.queue.answer.length + n ≤ Config.answerDepth

/-- An ANSWER frame queued; the sequencer queues only while there is room (R181). -/
def queueAnswer (a : AnswerFrame) (s : State) : State :=
  if answerRoom 1 s then { s with line.queue.answer := s.line.queue.answer ++ [a] } else s

/-- An ANNOUNCE entering its compartment's place: a waiting one is replaced in place (log 32). -/
def enterAnnounce (w : Which) (a : Announce) (q : TransmitQueue) : TransmitQueue :=
  { q with
    announce := q.announce.put w (some a)
    announceFirst :=
      if (q.announce.at w).isSome then q.announceFirst
      else if (q.announce.at w.other).isSome then w.other
      else w }

/-- An ANNOUNCE queued for a compartment: pending while that place's frame is on the line (R182). -/
def queueAnnounce (w : Which) (a : Announce) (s : State) : State :=
  if onLine (.announce w) s then { s with line.pendingAnnounce := s.line.pendingAnnounce.put w (some a) }
  else { s with line.queue := enterAnnounce w a s.line.queue }

/-- A STATE put in the periodic slot: it replaces a waiting one, and is pending while the slot's frame is on the
line (R141, R165, R182). -/
def putState (r : StateReport) (s : State) : State :=
  if onLine .periodic s then { s with line.pendingPeriodic := some (.state r) }
  else { s with line.queue.periodic := some (.state r) }

/-! ## Reports (R183) -/

/-- A report not yet sent, with no page completed. -/
def freshSent (r : Report) : SentReport := { report := r, motionDone := false, statusDone := false }

/-- The motion page as the slot's frame. -/
def motionOfReport (r : Report) : Payload := .page (.motion r.motion)

/-- The status page as the slot's frame. -/
def statusOfReport (r : Report) : Payload := .page (.status r.status)

/-- The waiting page rewritten as the same page of a new report; an empty slot takes the motion page (R183). -/
def rewritePage (slot : Option Payload) (r : Report) : Payload :=
  match slot with
  | some (.page (.status _)) => statusOfReport r
  | _ => motionOfReport r

/-- The page that the free slot takes: one of the latest report that has not completed, motion first (R183). -/
def nextPage (sent : Option SentReport) : Option Payload :=
  match sent with
  | none => none
  | some r =>
    if !r.motionDone then some (motionOfReport r.report)
    else if !r.statusDone then some (statusOfReport r.report)
    else none

/-- A report queued (R183). -/
def putReport (r : Report) (s : State) : State :=
  if onLine .periodic s then { s with line.pendingPeriodic := some (.report r) }
  else
    { s with
      line.sent := some (freshSent r)
      line.queue.periodic := some (rewritePage s.line.queue.periodic r) }

/-- The note of completed pages after the slot's frame has completed (R183). -/
def notePage (slot : Option Payload) (sent : Option SentReport) : Option SentReport :=
  match slot, sent with
  | some (.page (.motion _)), some r => some { r with motionDone := true }
  | some (.page (.status _)), some r => some { r with statusDone := true }
  | _, r => r

/-! ## Attempts (R179, R180) -/

/-- The place of the ANNOUNCE that was queued earliest. -/
def announcePlace (q : TransmitQueue) : Option Place :=
  if (q.announce.at q.announceFirst).isSome then some (.announce q.announceFirst)
  else if (q.announce.at q.announceFirst.other).isSome then some (.announce q.announceFirst.other)
  else none

/-- The place whose frame has the lowest priority field (R179). -/
def nextPlace (q : TransmitQueue) : Option Place :=
  if q.alarm.isSome then some .alarm
  else if !q.marker.isEmpty then some .marker
  else if q.periodic.isSome then some .periodic
  else if !q.call.isEmpty then some .call
  else if !q.answer.isEmpty then some .answer
  else announcePlace q

/-- The age of a pass at a start bit: ms from its edge, capped at 255 (R157, R179). -/
def markerAge (now edge : Nat) : Nat := min 255 (now - edge)

/-- The frame that stands in a place, at the moment of its start bit (R179). -/
def frameAt (now : Nat) (q : TransmitQueue) : Place → Option Payload
  | .periodic => q.periodic
  | .alarm => q.alarm.map .alarm
  | .announce w => (q.announce.at w).map .announce
  | .marker => q.marker.head?.map fun m => .marker m.comp (markerAge now m.edge)
  | .call => q.call.head?.map .call
  | .answer => q.answer.head?.map .answer

/-- The attempt that an idle line in ACTIVE lets the controller start (R179). -/
def newAttempt (s : State) : Option Attempt :=
  if s.line.mode = .active ∧ s.line.activity = .idle ∧ s.line.attempt = none then
    (nextPlace s.line.queue).bind fun p => (frameAt s.clock s.line.queue p).map fun body =>
      let f : Frame := { sender := s.config.node, payload := body }
      { place := p, frame := f, bits := encodeFrame f, startedAt := s.clock }
  else none

/-- The attempt started: its start bit is on the line (R179). -/
def startAttempt (s : State) : State :=
  match newAttempt s with
  | none => s
  | some a => { s with line.attempt := some a, line.activity := .sending, line.interframe := false }

/-- The queue with a place's frame removed (R180). -/
def freePlace (q : TransmitQueue) : Place → TransmitQueue
  | .periodic => { q with periodic := none }
  | .alarm => { q with alarm := none }
  | .announce w => { q with announce := q.announce.put w none }
  | .marker => { q with marker := q.marker.drop 1 }
  | .call => { q with call := q.call.drop 1 }
  | .answer => { q with answer := q.answer.drop 1 }

/-- The pending periodic frame entering the slot that its attempt has left: the motion page of a report, or the
STATE (R182, R183). -/
def enterPeriodic (p : PendingPeriodic) (l : LineController) : LineController :=
  match p with
  | .report r =>
    { l with queue.periodic := some (motionOfReport r), sent := some (freshSent r), pendingPeriodic := none }
  | .state f => { l with queue.periodic := some (.state f), pendingPeriodic := none }

/-- The pending periodic frame replacing the one a lost attempt has returned: a report rewrites the same page
(R182, R183). -/
def replacePeriodic (p : PendingPeriodic) (l : LineController) : LineController :=
  match p with
  | .report r =>
    { l with
      queue.periodic := some (rewritePage l.queue.periodic r)
      sent := some (freshSent r)
      pendingPeriodic := none }
  | .state f => { l with queue.periodic := some (.state f), pendingPeriodic := none }

/-- What follows in a place that a completed or aborted attempt has freed: the pending frame, or for a winder's
slot the next page of the latest report (R182, R183). -/
def refillPlace (p : Place) (l : LineController) : LineController :=
  match p with
  | .periodic =>
    match l.pendingPeriodic with
    | some f => enterPeriodic f l
    | none => { l with queue.periodic := nextPage l.sent }
  | .announce w =>
    match l.pendingAnnounce.at w with
    | some a => { l with queue := enterAnnounce w a l.queue, pendingAnnounce := l.pendingAnnounce.put w none }
    | none => l
  | _ => l

/-- A lost attempt: the frame stays, unless a pending one replaces it; the line is received (R180, R182). -/
def loseAttempt (a : Attempt) (l : LineController) : LineController :=
  let l := { l with attempt := none, activity := .receiving, interframe := false, rxStart := some a.startedAt }
  match a.place with
  | .periodic =>
    match l.pendingPeriodic with
    | some f => replacePeriodic f l
    | none => l
  | .announce w =>
    match l.pendingAnnounce.at w with
    | some x => { l with queue := enterAnnounce w x l.queue, pendingAnnounce := l.pendingAnnounce.put w none }
    | none => l
  | _ => l

/-- A completed attempt: the frame leaves its place; the line is idle after the interframe space (R180). -/
def completeAttempt (a : Attempt) (l : LineController) : LineController :=
  let sent := if a.place = .periodic then notePage l.queue.periodic l.sent else l.sent
  refillPlace a.place
    { l with attempt := none, interframe := true, sent := sent, queue := freePlace l.queue a.place }

/-- An aborted attempt, but for the fresh frame of its owning block: the frame is discarded, and the line is
received (R180). -/
def abortAttempt (a : Attempt) (l : LineController) : LineController :=
  let l :=
    { l with
      attempt := none, activity := .receiving, interframe := false, rxStart := some a.startedAt
      queue := freePlace l.queue a.place }
  match a.place with
  | .periodic => l.pendingPeriodic.elim l fun f => enterPeriodic f l
  | p => refillPlace p l

/-- The line controller at entry to DISABLED, by FAULTED or by a loss of supply: the queue, the pending frames and the
receive buffer are emptied, and no attempt is left on the line (R178). FAULTED waits for a running attempt's end (R189). -/
def disableLine (l : LineController) : LineController :=
  { l with
    mode := .disabled, queue := PowerUp.queue, attempt := none, interframe := false
    pendingPeriodic := none, pendingAnnounce := ⟨none, none⟩, heardOwn := false, rxStart := none, rxMarkers := [] }

end Sys2Proof.Machine
end

