-- ==== Sys2Proof/Machine/Peers.lean ====
section
/-! DEFINITION. The peer table (R53, R54, R187, R197 to R200) and the node's own ANNOUNCE frames (R196). -/

namespace Sys2Proof.Machine

open Sys2Proof

/-! ## Hearing (R199) -/

/-- A peer's entry at a hearing: PRESENT, its silence timer restarted for the node's own silence timeout. -/
def heardPeer (timeout : Nat) (p : Peer) : Peer := { p with heard := .present, silence := hundreds timeout }

/-- A frame heard from its sender. -/
def hear (n : Nat) (s : State) : State :=
  setPeer (heardPeer s.config.silenceTimeout (peerOf s n)) s

/-- A peer's entry when its silence timer runs out. -/
def silentPeer (p : Peer) : Peer := { p with heard := .silent, silence := none }

/-! ## Roles (R200) -/

/-- Two compartments of one place of a winder, of which either may not be known yet. -/
def sameOrUnknown (x y : Option Nat) : Bool := x.isNone || y.isNone || x == y

/-- Whether a compartment known in one place contradicts one known in the other. -/
def differs (x y : Option Nat) : Bool := x.isNone || y.isNone || x != y

/-- Whether what two frames say of a winder agrees: its kind, and which compartments are first and second. -/
def windersAgree (f1 s1 f2 s2 : Option Nat) : Bool :=
  sameOrUnknown f1 f2 && sameOrUnknown s1 s2 && differs f1 s2 && differs s1 f2

/-- Whether the role a frame gives differs from the one held (R200). A first role differs from no role held, but
then nothing is held that could be removed. -/
def roleDiffers : PeerRole → PeerRole → Bool
  | .none, _ => false
  | .winder k f g, .winder k' f' g' => !(k == k' && windersAgree f g f' g')
  | .point p, .point q => p != q
  | _, _ => true

/-- The role held after a frame that gives one: what a winder's frames say one after the other adds up (R200). -/
def roleAfter : PeerRole → PeerRole → PeerRole
  | .winder k f g, .winder k' f' g' =>
    if roleDiffers (.winder k f g) (.winder k' f' g') then .winder k' f' g'
    else .winder k' (f'.or f) (g'.or g)
  | _, r => r

/-- A peer's entry after a frame has given a role; a different role removes its geometry and snapshot (R200). -/
def rolePeer (r : PeerRole) (p : Peer) : Peer :=
  if roleDiffers p.role r then { p with role := r, geometry := [], fitted := [], snapshot := none }
  else { p with role := roleAfter p.role r }

/-- A node's learned entries removed (R68, R200). -/
def forgetLearned (n : Nat) (s : State) : State :=
  { s with w.tr.learned := s.w.tr.learned.both fun t => t.filter fun e => e.node != n }

/-- A role taken from a frame: at a winder, a different role takes the node's learned entries with its geometry
(R200). -/
def takeRole (n : Nat) (r : PeerRole) (s : State) : State :=
  let old := peerOf s n
  let s1 := setPeer (rolePeer r old) s
  if roleDiffers old.role r && hasRole s .winder then forgetLearned n s1 else s1

/-! ## Geometry (R53, R54) -/

/-- A depth that a geometry record may hold (R53). -/
def depthOk (x : Int) : Bool := -100000 ≤ x && x ≤ 4000000

/-- Whether an arriving ANNOUNCE of a shaft point is taken (R53). Its compartment and level are within range in
any frame that is delivered (R204). -/
def announceTaken (p : PointAnnounce) : Bool :=
  WellFormed.compOk p.comp && (match p.point with | .landing l => WellFormed.levelOk l | _ => true)
    && depthOk p.stop && depthOk p.down && depthOk p.up

/-- The geometry record of an ANNOUNCE (R53). Half-width and zone speed are a landing's fields (R204). -/
def geometryFrom (p : PointAnnounce) : Geometry :=
  { point := p.point, comp := p.comp, hasLanding := p.hasLanding, servesMen := p.servesMen, fitted := p.fitted
    stop := p.stop, down := p.down, up := p.up, half := landingField p.point p.half
    zoneSpeed := landingField p.point p.zoneSpeed }

/-- A geometry record in place of the one of its compartment. -/
def putGeometry (g : Geometry) (gs : List Geometry) : List Geometry :=
  insertBy (fun x => (x.comp : Int)) g (gs.filter fun x => x.comp != g.comp)

/-- What a frame shows of a compartment's marker, in place of what was known of it. -/
def putFitted (c : Nat × Bool) (fs : List (Nat × Bool)) : List (Nat × Bool) :=
  insertBy (fun x => (x.1 : Int)) c (fs.filter fun x => x.1 != c.1)

/-- Whether a peer's latest STATE or ANNOUNCE shows its marker not fitted for a compartment (R21). -/
def showsUnfitted (p : Peer) (comp : Nat) : Bool := p.fitted.any fun f => f.1 == comp && !f.2

/-- Whether two points of one compartment cannot both stand: one level twice, two loaders, two tippers (R54). -/
def pointsClash (p q : PointKind) : Bool := p == q

/-- Whether two peers' records clash (R54). -/
def peersClash (p q : Peer) : Bool :=
  p.node != q.node && p.geometry.any fun g => q.geometry.any fun h => g.comp == h.comp && pointsClash g.point h.point

/-- The clash test over every record held (R54). -/
def testConflicts (s : State) : State :=
  { s with peers := s.peers.map fun p => { p with conflict := s.peers.any (peersClash p) } }

/-- A geometry record taken into its sender's entry, and the clash test made (R53, R54). -/
def takeGeometry (n : Nat) (p : PointAnnounce) (s : State) : State :=
  let old := peerOf s n
  testConflicts
    (setPeer
      { old with geometry := putGeometry (geometryFrom p) old.geometry, fitted := putFitted (p.comp, p.fitted) old.fitted }
      s)

/-! ## Snapshots (R198, R200) -/

/-- A STATE taken as its sender's snapshot. -/
def takeState (n : Nat) (r : StateReport) (s : State) : State :=
  let s1 := takeRole n (.point (pointOfState r)) s
  let old := peerOf s1 n
  setPeer
    { old with
      snapshot := some (.state r)
      fitted := (fittedOfState r).foldl (fun fs c => putFitted c fs) old.fitted }
    s1

/-- A delivered report taken as its sender's snapshot. -/
def takeMotion (n : Nat) (m : Motion) (s : State) : State :=
  let st := m.report.status
  let s1 := takeRole n (.winder st.kind (some st.first) (some st.second)) s
  setPeer { peerOf s1 n with snapshot := some (.motion m) } s1

/-! ## Report assembly (R187) -/

/-- The assembly of a winder node, none held after power-up. -/
def assemblyOf (s : State) (n : Nat) : Assembly :=
  (s.line.assembly.find? fun a => a.node == n).getD { node := n, motion := none, status := none, delivered := none }

/-- An assembly put in its node's place. -/
def putAssembly (a : Assembly) : List Assembly → List Assembly
  | [] => [a]
  | b :: bs => if a.node = b.node then a :: bs else if a.node < b.node then a :: b :: bs else b :: putAssembly a bs

/-- An assembly with a delivered page in place of the held page of its kind. -/
def addPage (now : Nat) (p : Page) (a : Assembly) : Assembly :=
  match p with
  | .motion m => { a with motion := some (m, now) }
  | .status st => { a with status := some st }

/-- The report that the two held pages make: one number, and not that of the last report delivered (R187). -/
def completeReport (a : Assembly) : Option Motion :=
  match a.motion, a.status with
  | some (m, t), some st =>
    if m.number = st.number ∧ a.delivered ≠ some m.number then some { report := ⟨m, st⟩, receivedAt := t } else none
  | _, _ => none

/-- The assembly once its report is delivered. -/
def markDelivered (a : Assembly) : Assembly :=
  match completeReport a with
  | some m => { a with delivered := some m.report.motion.number }
  | none => a

/-! ## The node's own ANNOUNCE (R196) -/

/-- The part of the configuration that belongs to a served compartment. -/
def served (p : PointConfig) : Which → Option ServedConfig
  | .first => some p.first
  | .second => p.second

/-- Marker fitted of a served compartment: as configured, and at a landing no while its loop is faulty (R156). -/
def markerFitted (s : State) (w : Which) : Bool :=
  (served (pcfg s) w).any (·.fitted) && !(hasRole s .landing && (s.l.loops.at w).faulty)

/-- The point kind the node's own configuration gives it. -/
def ownPoint (s : State) : PointKind :=
  match s.config.role with
  | .loader => .loader
  | .tipper => .tipper
  | _ => .landing (pcfg s).level

/-- A shaft point's ANNOUNCE for one served compartment. -/
def pointAnnounce (s : State) (w : Which) (start : Bool) (c : ServedConfig) : Announce :=
  .point
    { point := ownPoint s, comp := c.comp, start := start, hasLanding := c.hasLanding, servesMen := c.servesMen
      fitted := markerFitted s w, stop := c.stop, down := c.down, up := c.up
      half := landingField (ownPoint s) (pcfg s).half, zoneSpeed := landingField (ownPoint s) (pcfg s).zoneSpeed }

/-- The node's ANNOUNCE for its first or second compartment, if it has one. -/
def ownAnnounce (s : State) (w : Which) (start : Bool) : Option Announce :=
  if hasRole s .winder then
    some (.winder { kind := (wcfg s).kind, comp := (wcfg s).comps.at w, start := start, second := w == .second })
  else (served (pcfg s) w).map (pointAnnounce s w start)

/-- One ANNOUNCE of the node's own queued. -/
def queueOwn (w : Which) (start : Bool) (s : State) : State :=
  match ownAnnounce s w start with
  | some a => queueAnnounce w a s
  | none => s

/-- A full set of ANNOUNCE frames queued, one per compartment (R196). The first compartment's counts as queued before the
second's (DESIGN CHOICE, log 68). -/
def queueOwnSet (start : Bool) (s : State) : State := queueOwn .second start (queueOwn .first start s)

/-- Whether a frame from a node triggers a re-announce: its entry was UNKNOWN or SILENT before it (R197). -/
def wasAbsent (s : State) (n : Nat) : Bool := (peerOf s n).heard != .present

end Sys2Proof.Machine
end

