-- ==== Sys2Proof/Machine/LandingLogic.lean ====
section
/-! DEFINITION. The landing logic (chapter 7): what the landing's winder shows, the landing state, custody and its
giving up, calls, the STATE content, marker loops, the cross-check and the lamps. -/

namespace Sys2Proof.Machine

open Sys2Proof

/-! ## The landing's winder (R138) -/

/-- A landing's cage compartment: its served compartment with has landing yes (R138). -/
def cageCompartment (p : PointConfig) : Option Nat :=
  if p.first.hasLanding then some p.first.comp
  else (p.second.filter (·.hasLanding)).map (·.comp)

/-- Whether a peer's latest report makes it the landing's winder: a service winder with the cage compartment
first (R138). -/
def windsCage (p : PointConfig) (q : Peer) : Bool :=
  match motionOf q, cageCompartment p with
  | some m, some c => m.report.status.kind == .service && m.report.status.first == c
  | _, _ => false

/-- The landing's winder; of two, the lower node (R138). -/
def landingWinder (s : State) : Option Peer := s.peers.find? (windsCage (pcfg s))

/-- The latest report of the landing's winder. -/
def landingView (s : State) : Option Report := ((landingWinder s).bind motionOf).map (·.report)

/-- "Parked here": the winder shows IDLE and the landing's level (R138). -/
def parkedHere (s : State) : Bool :=
  (landingView s).any fun r => r.motion.wind == .idle && r.status.parked == some (pcfg s).level

/-- "Named": the winder's custodian field carries the landing's number (R138). -/
def isNamed (s : State) : Bool := (landingView s).any fun r => r.status.custodian == s.config.node

/-- Whether the winder shows no custodian. -/
def noneNamed (s : State) : Bool := (landingView s).any fun r => r.status.custodian == 0

/-- Whether the winder shows the landing as last custodian. -/
def isLast (s : State) : Bool := (landingView s).any fun r => r.status.last == s.config.node

/-! ## The gate and the state (R140, R143) -/

/-- The gate state from the inputs (R140); an input not yet qualified reads as off (log 13). -/
def gateOfInputs (s : State) : GateState := gateState (isOn s.l.gateClosed) (isOn s.l.gateLocked)

/-- The claim condition (R143). -/
def claimCondition (s : State) : Bool := gateOfInputs s == .closedLocked && !s.l.breach

/-- Where the cage stands, by the winder's latest report (R143). -/
def cageState (s : State) : LandingState :=
  if isNamed s && parkedHere s then .custody
  else if parkedHere s && noneNamed s && !isLast s then
    if claimCondition s then .claiming else .cageHere
  else .noCage

/-- A landing state entered; the gate release is energised only in CUSTODY (R145). -/
def enterLanding (st : LandingState) (s : State) : State :=
  { s with l.state := st, l.release := st == .custody }

/-- The state evaluated by R143. -/
def evaluateCage (s : State) : State := enterLanding (cageState s) s

/-- Whether the OUT OF SERVICE key takes a landing from a state (R148). -/
def keyTakes : LandingState → Bool
  | .noCage => true
  | .cageHere => true
  | .claiming => true
  | _ => false

/-- OUT_OF_SERVICE entered where the key is on and the state lets it (R148). -/
def applyKey (s : State) : State :=
  if isOn s.l.outKey && keyTakes s.l.state then enterLanding .outOfService s else s

/-! ## Lamps (R159) -/

/-- The FAULT lamp's flash, with the longer of its remaining and its new length (R159). -/
def flashFor (ms : Nat) (s : State) : State := { s with l.flash := some (max ms (s.l.flash.getD 0)) }

/-- A button's press ignored (R150). -/
def ignorePress (s : State) : State := flashFor Config.flashShort s

/-- Whether a loop's fault is shown: the loop is supervised and faulty (R156). -/
def loopShown (s : State) (w : Which) : Bool :=
  (served (pcfg s) w).any (·.fitted) && (s.l.loops.at w).faulty

/-- The WAIT lamp. -/
def lampWait (s : State) : Lamp :=
  if s.l.call.any (·.status == .waiting) then .steady
  else if s.l.state = .locking ∨ s.l.state = .releasing then .flashing
  else .off

/-- The ACCEPTED lamp. -/
def lampAccepted (s : State) : Lamp :=
  match s.l.call with
  | some c => if c.status = .accepted then (if c.mark = .inService then .flashing else .steady) else .off
  | none => .off

/-- The CAGE HERE lamp. -/
def lampCageHere (s : State) : Lamp :=
  if s.l.state = .custody then .flashing else if parkedHere s then .steady else .off

/-- The FAULT lamp. -/
def lampFault (s : State) : Lamp :=
  if s.l.breach || s.l.lockFail || s.l.doubt.a || s.l.doubt.b || loopShown s .first || loopShown s .second
      || gateOfInputs s == .unknown then .steady
  else if s.l.flash.isSome then .flashing
  else .off

/-! ## STATE (R141, R155) -/

/-- Whether the EMERGENCY input is active: either channel (R155). -/
def emergency (s : State) : Bool := isOn s.l.emergency1 || isOn s.l.emergency2

/-- The mask of a compartment: n in bit n − 1 (R204). -/
def compMask (comp : Nat) : BitVec 4 := BitVec.ofNat 4 (2 ^ (comp - 1))

/-- The alarm's compartment mask by the alarm scope (R155). -/
def alarmMask (p : PointConfig) : BitVec 4 :=
  if p.shaftAlarm then 15#4
  else compMask p.first.comp ||| (p.second.elim 0#4 fun c => compMask c.comp)

/-- The custody field of the cage compartment (table at the head of chapter 7, R148). -/
def custodyShown (s : State) : CustodyField :=
  match s.l.state with
  | .claiming => .claim
  | .custody => .held
  | .locking => .held
  | .releasing => .release
  | .outOfService => if isNamed s then .release else .none
  | _ => .none

/-- Target present: the loop OK and its sensor input active (R141). -/
def loopPresent (s : State) (w : Which) : Bool :=
  (served (pcfg s) w).any (·.fitted) && !(s.l.loops.at w).faulty && (s.l.loops.at w).cls == .active

/-- A landing's STATE content for one served compartment. -/
def landingCompView (s : State) (w : Which) (c : ServedConfig) : LandingComp :=
  { comp := c.comp
    custody := if cageCompartment (pcfg s) = some c.comp then custodyShown s else .none
    fitted := markerFitted s w, present := loopPresent s w, doubt := s.l.doubt.at w }

/-- A landing's STATE content (R141). Its compartment mask is 0 while it shows no alarm (DESIGN CHOICE, log 80). -/
def landingReport (s : State) : LandingReport :=
  { level := (pcfg s).level, state := s.l.state, gate := gateOfInputs s, stopHold := isOn s.l.stopSwitch
    work := isOn s.l.workSwitch, outOfService := s.l.state == .outOfService, alarm := emergency s
    breach := s.l.breach, lockFail := s.l.lockFail
    mask := if emergency s then alarmMask (pcfg s) else 0#4
    first := landingCompView s .first (pcfg s).first
    second := (pcfg s).second.map (landingCompView s .second) }

/-! ## Calls (R150 to R153) -/

/-- Whether the call record is busy (R150). -/
def callBusy (s : State) : Bool :=
  s.l.call.any fun c => c.status == .waiting || (c.status == .accepted && c.mark != .returned)

/-- Whether the call record is WAITING. -/
def callWaiting (s : State) : Bool := s.l.call.any (·.status == .waiting)

/-- A CALL queued to the landing's winder with its new call record, and the call timer started (R151). -/
def placeCall (k : CallKind) (dest : Option (Nat × LoadClass)) (s : State) : State :=
  match landingWinder s with
  | none => s
  | some w =>
    let own := (pcfg s).level
    let ask :=
      match k, dest with
      | .dispatch, some (d, cls) => Ask.dispatch own d cls
      | .relevel, _ => Ask.relevel own
      | _, _ => Ask.fetch own
    let record : LandingCall :=
      { kind := k, level := (dest.map (·.1)).getD own, dest := dest, status := .waiting, seq := none, reason := none
        mark := .none, suspendedSeen := false }
    queueCall { target := w.node, ask := ask }
      { s with l.call := some record, l.callTimer := hundreds s.config.callTimeout }

/-- Whether the landing's buttons may act at all: it has a cage compartment and a winder (R138, R150). -/
def hasWinder (s : State) : Bool := (landingWinder s).isSome

/-- The CALL button outside STARTING (R150). -/
def pressCall (s : State) : State :=
  if s.l.state = .noCage ∧ (parkedHere s && noneNamed s && isLast s) = true then enterLanding .claiming s
  else if (s.l.state = .noCage ∨ s.l.state = .cageHere) ∧ (hasWinder s && !parkedHere s && !callBusy s) = true then
    placeCall .fetch none s
  else ignorePress s

/-- LOCKING entered: the release goes off and the lock timer starts (R146). -/
def enterLocking (pending : Option (Nat × LoadClass)) (s : State) : State :=
  { enterLanding .locking s with l.lockTimer := some (pcfg s).lockWindow, l.pendingDispatch := pending }

/-- Whether the gate is closed, locked or not (R150). -/
def gateShut (s : State) : Bool := gateOfInputs s == .closed || gateOfInputs s == .closedLocked

/-- The DISPATCH button outside STARTING, with what the selectors show (R150). -/
def pressDispatch (dest : Nat) (cls : Option LoadClass) (s : State) : State :=
  match cls with
  | none => ignorePress s
  | some k =>
    if dest = (pcfg s).level ∨ callBusy s = true ∨ hasWinder s = false then ignorePress s
    else if s.l.state = .custody ∧ gateShut s = true then enterLocking (some (dest, k)) s
    else if s.l.state = .noCage ∧ (parkedHere s && isLast s && gateOfInputs s == .closedLocked) = true then
      placeCall .dispatch (some (dest, k)) s
    else ignorePress s

/-- The RELEASE button outside STARTING (R150). -/
def pressRelease (s : State) : State :=
  if s.l.state = .custody ∧ gateShut s = true then enterLocking none s else ignorePress s

/-- Whether the winder shows IDLE with no parked level (R150). -/
def cageOffLevel (s : State) : Bool :=
  (landingView s).any fun r => r.motion.wind == .idle && r.status.parked.isNone

/-- The RELEVEL button outside STARTING (R150). -/
def pressRelevel (s : State) : State :=
  if s.l.state = .noCage ∧ (cageOffLevel s && !callWaiting s) = true then placeCall .relevel none s
  else ignorePress s

/-- The call record after an answer of its kind, if the answer is taken (R152). -/
def answeredCall (c : LandingCall) (r : Reply) : Option LandingCall :=
  if c.status = .waiting ∨ c.status = .noAnswer then
    match r with
    | .accepted 0 _ => some { c with status := .done }
    | .accepted _ q => some { c with status := .accepted, seq := some q }
    | .merged q => some { c with status := .accepted, seq := some q }
    | .refused x => some { c with status := .refused, reason := x }
    | .dropped _ => none
  else if c.status = .accepted then
    match r with
    | .dropped q => if c.seq = some q then some { c with status := .dropped } else none
    | _ => none
  else none

/-- Whether a status flashes the FAULT lamp as it is entered (R152). -/
def flashes : CallStatus → Bool
  | .refused => true
  | .dropped => true
  | .noAnswer => true
  | _ => false

/-- A call record written, with its flash (R152, R153). -/
def writeCall (c : LandingCall) (s : State) : State :=
  let s1 := { s with l.call := some c }
  if flashes c.status then flashFor Config.flashLong s1 else s1

/-- An ANSWER from the landing's winder (R152). -/
def landingAnswer (n : Nat) (a : AnswerFrame) (s : State) : State :=
  match s.l.call with
  | none => s
  | some c =>
    if (landingWinder s).map (·.node) = some n ∧ a.kind = some c.kind then
      match answeredCall c a.reply with
      | some c1 => writeCall c1 { s with l.callTimer := none }
      | none => s
    else s

/-- Whether a report shows a call record's own call in service (R153). -/
def showsInService (node : Nat) (c : LandingCall) (r : StatusPage) : Bool :=
  r.call == some c.kind && r.origin == node && c.seq == some r.seq

/-- An ACCEPTED call record after a report of the winder (R153), its rows in order. -/
def trackedCall (node : Nat) (c : LandingCall) (r : Report) : LandingCall :=
  let idle := r.motion.wind = .idle
  if idle ∧ r.status.parked = some c.level then { c with status := .done }
  else if showsInService node c r.status then { c with mark := .inService }
  else if r.status.record = true ∧ r.status.call = none ∧ c.mark = .inService then
    { c with mark := .suspended, suspendedSeen := true }
  else if idle ∧ r.status.call = none ∧ r.status.record = false then
    if c.suspendedSeen then { c with status := .dropped }
    else if c.mark = .inService then { c with mark := .returned }
    else c
  else c

/-- The call record compared with a report of the landing's winder (R153). -/
def trackCall (s : State) : State :=
  match s.l.call, landingView s with
  | some c, some r => if c.status = .accepted then writeCall (trackedCall s.config.node c r) s else s
  | _, _ => s

/-! ## The landing state at a report (R143 to R147) -/

/-- LOCKING given up: its timer and pending DISPATCH (R146). -/
def clearLocking (s : State) : State := { s with l.lockTimer := none, l.pendingDispatch := none }

/-- The landing state at a report of its winder. -/
def landingAtReport (s : State) : State :=
  match s.l.state with
  | .noCage => evaluateCage s
  | .cageHere => evaluateCage s
  | .claiming =>
    if isNamed s && parkedHere s then enterLanding .custody s
    else if parkedHere s && noneNamed s then s
    else enterLanding .noCage s
  | .custody => if isNamed s && parkedHere s then s else evaluateCage s
  | .locking =>
    if isNamed s && parkedHere s then s else evaluateCage (flashFor Config.flashShort (clearLocking s))
  | .releasing => if isNamed s then s else evaluateCage s
  | .starting => s
  | .outOfService => s

/-- RELEASING entered: a pending DISPATCH sends its CALL (R147). -/
def enterReleasing (s : State) : State :=
  let pending := s.l.pendingDispatch
  let s1 := enterLanding .releasing (clearLocking s)
  match pending with
  | some d => placeCall .dispatch (some d) s1
  | none => s1

/-- LOCKING that falls back to CUSTODY: the release is energised again (R146). -/
def backToCustody (s : State) : State := enterLanding .custody (clearLocking s)

/-- Whether an opening in a state is a breach (R149). -/
def breachState : LandingState → Bool
  | .noCage => true
  | .cageHere => true
  | .claiming => true
  | .releasing => true
  | .outOfService => true
  | _ => false

/-- The landing state after a change of gate state or GATE_BREACH, of which `withdraws` says that it withdraws a
claim (R143, R144). -/
def landingAtGate (withdraws : Bool) (s : State) : State :=
  match s.l.state with
  | .noCage => evaluateCage s
  | .cageHere => evaluateCage s
  | .claiming => if withdraws then evaluateCage s else s
  | _ => s

/-- Whether a change of the gate contacts withdraws a claim: the gate state leaves CLOSED_LOCKED, or the gate opens
and sets GATE_BREACH (R144, R149). A claim by CALL with the gate not locked outlasts other changes (R150). -/
def endsClaim (before : GateState) (opening : Bool) (s : State) : Bool :=
  opening || (before == .closedLocked && gateOfInputs s != .closedLocked)

/-- What a change of the gate contacts does outside STARTING, given the gate state before it (R146, R149). -/
def gateActs (before : GateState) (opening : Bool) (s : State) : State :=
  if s.l.state = .locking then
    if opening then flashFor Config.flashShort (backToCustody s)
    else if gateOfInputs s = .closedLocked ∧ before ≠ .closedLocked then enterReleasing s
    else s
  else
    landingAtGate (endsClaim before opening s) (if opening && breachState s.l.state then { s with l.breach := true } else s)

/-! ## The cross-check (R158) -/

/-- The peers whose latest report shows a compartment among the winder's two. -/
def windsComp (comp : Nat) (p : Peer) : Option Motion :=
  (motionOf p).filter fun m => m.report.status.first == comp || m.report.status.second == comp

/-- The report most recently received from the winder of a compartment (R158). -/
def latestFor (s : State) (comp : Nat) : Option Motion :=
  leastBy (fun m => s.clock - m.receivedAt) (s.peers.filterMap (windsComp comp))

/-- The conveyance of a compartment in a report. -/
def convInReport (r : Report) (comp : Nat) : Conv := if r.status.first = comp then .a else .b

/-- The extrapolated depth (R158). -/
def extrapolate (x v : Int) (t : Nat) : Int := x + Int.tdiv (v * t) 1000

/-- The cross-check's finding, if a check can be made: whether the pass is in doubt (R158). -/
def crossCheck (s : State) (c : ServedConfig) : Option Bool :=
  (latestFor s c.comp).bind fun m =>
    let conv := convInReport m.report c.comp
    let v := m.report.motion.v.get conv
    let t := s.clock - m.receivedAt
    match m.report.motion.x.get conv with
    | none => none
    | some x =>
      if Config.crossCheckAge < t ∨ m.report.motion.validated = false ∨ v = 0 then none
      else some ((pcfg s).crossWindow < apart (extrapolate x v t) (if 0 < v then c.down else c.up))

/-- A pass taken: the loop disarms, a MARKER is queued, and the cross-check runs (R157, R158). -/
def takePass (w : Which) (c : ServedConfig) (s : State) : State :=
  let s1 := { s with l.loops := s.l.loops.put w { s.l.loops.at w with armed := false } }
  let s2 := queueMarker { comp := c.comp, edge := s.clock } s1
  match crossCheck s c with
  | some d => { s2 with l.doubt := s.l.doubt.put w d }
  | none => s2

/-! ## The end of STARTING and the RESET key (R142, R160) -/

/-- A landing's first state (R142). -/
def startLanding (s : State) : State :=
  let s1 := if isOn s.l.outKey then enterLanding .outOfService s else evaluateCage s
  if emergency s then queueAlarm (alarmMask (pcfg s)) s1 else s1

/-- The RESET key's effect (R160). -/
def resetLanding (s : State) : State :=
  let s1 :=
    { s with
      l.breach := s.l.breach && gateOfInputs s != .closedLocked
      l.lockFail := s.l.lockFail && gateOfInputs s == .unknown
      l.doubt := ⟨false, false⟩
      l.flash := none }
  if s.l.breach && !s1.l.breach then landingAtGate false s1 else s1

end Sys2Proof.Machine
end

