-- ==== Sys2Proof/Machine/Flags.lean ====
section
/-! DEFINITION. The fault supervisor's flags (chapter 6): when each kind's condition is present, how its state
follows, the fault mask, and when TRIP is asserted. -/

namespace Sys2Proof.Machine

open Sys2Proof

/-- The effective reaction of a kind (R113, R115). -/
def reactionOf (s : State) (k : FaultKind) : Reaction := (wcfg s).reactions.get k

/-- A kind's state. -/
def faultState (s : State) (k : FaultKind) : FaultState := (s.w.flt.kinds.get k).state

/-- Whether a kind is ACTIVE. -/
def isActive (s : State) (k : FaultKind) : Bool := faultState s k == .active

/-- Whether a kind is ACTIVE under a reaction. -/
def activeUnder (s : State) (r : Reaction) (k : FaultKind) : Bool := isActive s k && reactionOf s k == r

/-- The first kind of R115's table that is ACTIVE under a reaction. -/
def firstUnder (s : State) (r : Reaction) : Option FaultKind := FaultKind.all.find? (activeUnder s r)

/-- Whether any kind is HELD. -/
def anyHeld (s : State) : Bool := FaultKind.all.any fun k => faultState s k == .held

/-- Whether any kind whose reaction is STOP, TRIP_AUTO or TRIP_LATCHED is ACTIVE (R57, R64). -/
def strongActive (s : State) : Bool :=
  FaultKind.all.any fun k =>
    activeUnder s .stop k || activeUnder s .tripAuto k || activeUnder s .tripLatched k

/-- The reported landing source of a member point, if it is a landing. -/
def landingReportOf (p : Peer) : Option LandingReport :=
  match stateOf p with
  | some (.landing r) => some r
  | _ => none

/-- Whether a landing shows TRACK_DOUBT for a compartment of the winder (R123). -/
def showsDoubt (s : State) (r : LandingReport) : Bool :=
  (landingComp r (wcfg s).comps.a).any (·.doubt) || (landingComp r (wcfg s).comps.b).any (·.doubt)

/-- The landing source of TRACKING (R123). -/
def landingDoubt (s : State) : Bool :=
  (members s).any fun p => (landingReportOf p).any (showsDoubt s)

/-- Whether any landing of the compartments shows GATE_BREACH (R123). -/
def landingBreach (s : State) : Bool :=
  (members s).any fun p => (landingReportOf p).any (·.breach)

/-- Whether any shaft point of the compartments is SILENT, one whose first STATE has not been heard apart (R123). -/
def memberSilent (s : State) : Bool := (members s).any fun p => statusOf p == .silent && (stateOf p).isSome

/-- When each kind's condition is present (R114). -/
def condition (s : State) : FaultKind → Bool
  | .overspeed => s.w.flt.atSample.overspeed
  | .overwind => s.w.flt.overwind
  | .overrun => s.w.flt.overrun
  | .encoder => s.w.tr.negative || s.w.tr.stallRaised || s.w.flt.atSample.encoder
  | .tracking => s.w.flt.atSample.tracking || landingDoubt s
  | .markerMissed => s.w.flt.atSample.markerMissed
  | .peerSilent => memberSilent s
  | .gateBreach => landingBreach s
  | .alarm => !s.w.flt.alarmSet.isEmpty
  | .startFail => s.w.flt.atSample.startFail
  | .lateRestriction => s.w.flt.atSample.lateRestriction
  | .duplicateNode => s.w.flt.duplicate

/-- How a kind's state follows its condition (R116). -/
def nextFaultState (r : Reaction) (old : FaultState) (present : Bool) : FaultState :=
  match present, old with
  | true, _ => .active
  | false, .active => if r = .tripLatched then .held else .clear
  | false, .clear => .clear
  | false, .held => .held

/-- Every kind's condition formed anew and its state following it (R116). -/
def updateFaults (s : State) : State :=
  { s with
    w.flt.kinds := PerFault.build fun k =>
      ⟨condition s k, nextFaultState (reactionOf s k) (faultState s k) (condition s k)⟩ }

/-- An event-like kind raised, to be present at the next position sample (R114). -/
def raiseEvent (k : FaultKind) (s : State) : State :=
  { s with w.flt.raised := s.w.flt.raised.set k true }

/-- Whether a kind asserts TRIP: under TRIP_LATCHED while ACTIVE or HELD, under TRIP_AUTO while ACTIVE (R118). -/
def kindTrips (s : State) (k : FaultKind) : Bool :=
  match reactionOf s k with
  | .tripLatched => faultState s k != .clear
  | .tripAuto => faultState s k == .active
  | _ => false

/-- Whether TRIP is asserted (R118): from power-up until the first driver reset after the listen period,
throughout FAULTED, and by the kinds under TRIP_LATCHED and TRIP_AUTO. -/
def tripLevel (s : State) : Bool :=
  s.w.flt.powerUpTrip || s.w.seq.wind == .faulted || FaultKind.all.any (kindTrips s)

/-- The first kind of R115's table that asserts TRIP. -/
def trippingKind (s : State) : Option FaultKind := FaultKind.all.find? (kindTrips s)

/-- The trip cause as the fault states stand: the kept one while TRIP stays asserted or is released, and as TRIP asserts
the first kind of R115's table that asserts it (R118). -/
def tripCauseAfter (s : State) : TripCause :=
  if tripLevel s && !s.w.flt.trip then
    match trippingKind s with
    | some k => .fault k
    | none => s.w.flt.tripCause
  else s.w.flt.tripCause

/-- The fault mask of a report: bits 0 to 10 for the kinds that are ACTIVE or HELD (R111, R204). -/
def faultMask (s : State) : BitVec 11 :=
  FaultKind.all.foldl
    (fun m k => if faultState s k != .clear && k != .duplicateNode then m ||| BitVec.ofNat 11 (2 ^ k.code) else m) 0

end Sys2Proof.Machine
end

