-- ==== Sys2Proof/Machine/Tracker.lean ====
section
/-! DEFINITION. The conveyance tracker (chapter 1): paid-out length, stretch, position, velocity, the history,
marker correction, marker expectation and the stall timer. -/

namespace Sys2Proof.Machine

open Sys2Proof

/-! ## Paid-out length (R4 to R6) -/

/-- The configured values of a conveyance. -/
def conveyance (s : State) (c : Conv) : ConvConfig := (wcfg s).conv.get c

/-- The drum sense of a conveyance: B's is the opposite of A's (R4). -/
def senseOf (s : State) : Conv → Int
  | .a => (wcfg s).senseA
  | .b => -(wcfg s).senseA

/-- The paid-out counts of a conveyance at a drum count (R4). -/
def paidCounts (s : State) (c : Conv) (o : Origin) (n : Count) : Int :=
  (conveyance s c).r + senseOf s c * countDiff n o.n0

/-- The sum over the layers, each truncated on its own; the last layer takes all counts left (R5). -/
def layerSum (cpr : Nat) : List Layer → Nat → Nat
  | [], _ => 0
  | [l], u => u * l.lam / cpr
  | l :: ls, u => min u (l.turns * cpr) * l.lam / cpr + layerSum cpr ls (u - min u (l.turns * cpr))

/-- The paid-out length of paid-out counts; negative counts give 0 (R5, R6). -/
def paidLength (s : State) (c : Conv) (u : Int) : Nat :=
  layerSum (wcfg s).countsPerRev (conveyance s c).layers u.toNat / 1000

/-- The paid-out length at a drum count, under the present origin and layer table. -/
def paidAt (s : State) (c : Conv) (o : Origin) (n : Count) : Nat := paidLength s c (paidCounts s c o n)

/-- The largest λ of a conveyance's layer table (R10). -/
def lamMax (s : State) (c : Conv) : Nat := (conveyance s c).layers.foldl (fun m l => max m l.lam) 0

/-! ## Load classes (R13) -/

/-- The classes, UNKNOWN apart, that a conveyance may hold. -/
def kindClasses (s : State) : Conv → List LoadClass
  | .a => if isRock s then [.empty, .full] else [.empty, .men, .material]
  | .b => if isRock s then [.empty, .full] else [.fixed]

/-- The configured values of a class. -/
def classConfig (s : State) (cls : LoadClass) : ClassConfig := (wcfg s).classes.getD (classCode cls) ⟨0, 0⟩

/-- The end-load coefficient of a class: UNKNOWN takes the largest of its kind (R13). -/
def endLoad (s : State) (c : Conv) (cls : LoadClass) : Nat :=
  match cls with
  | .unknown => (kindClasses s c).foldl (fun m k => max m (classConfig s k).e) 0
  | k => (classConfig s k).e

/-- The top speed of a class: UNKNOWN takes the smallest of its kind (R13). -/
def classTop (s : State) (c : Conv) (cls : LoadClass) : Nat :=
  match cls with
  | .unknown => (kindClasses s c).foldl (fun m k => min m (classConfig s k).top) 20000
  | k => (classConfig s k).top

/-! ## Stretch and position (R7, R8) -/

/-- The stretch of a suspended length under a class (R7). -/
def stretchOf (s : State) (c : Conv) (cls : LoadClass) (paid : Nat) : Nat :=
  let ls := (conveyance s c).h + paid
  ls * endLoad s c cls / 1000000 + ls * ls / 1000000 * (conveyance s c).g / 1000000

/-- The uncorrected position of a conveyance at a drum count (R8). -/
def rawPosition (s : State) (c : Conv) (o : Origin) (n : Count) : Int :=
  let p := paidAt s c o n
  (conveyance s c).z + o.q.get c + p + stretchOf s c (s.w.tr.cls.get c) p

/-! ## Velocity and direction (R9 to R11) -/

/-- The drum count of the sample 10 earlier, once the speed window holds 10 (R9). -/
def windowCount (s : State) : Option Count := s.w.tr.window[Config.windowDepth - 1]?

/-- The velocity of a conveyance at a sample (R9, R10). -/
def velocity (s : State) (c : Conv) (now : Count) : Int :=
  match windowCount s with
  | none => 0
  | some past =>
    match s.w.tr.origin with
    | some o => ((paidAt s c o now : Int) - paidAt s c o past) * 50
    | none =>
      Int.tdiv (Int.tdiv (senseOf s c * countDiff now past * lamMax s c) (wcfg s).countsPerRev) 20

/-- The direction after a sample's velocity (R11). -/
def directionAfter (old : Dir) (v : Int) : Dir := if 0 < v then .down else if v < 0 then .up else old

/-! ## The sample's results (R2) -/

/-- One thing formed for each conveyance. -/
def each {α : Type} (f : Conv → α) : Pair α := ⟨f .a, f .b⟩

/-- The history's newest entry at a sample (R12). -/
def historyEntry (s : State) (dir : Pair Dir) : HistoryEntry :=
  { x := s.w.tr.origin.map fun o => each fun c => rawPosition s c o s.w.tr.n, dir := dir }

/-- Steps 1 to 3 of the sample: N read, u, P, S, X, v and the direction computed, the history extended (R2). -/
def computeTrack (s : State) : State :=
  let t := s.w.tr
  let u := each fun c => t.origin.map fun o => paidCounts s c o t.n
  let paid := each fun c => t.origin.map fun o => paidAt s c o t.n
  let v := each fun c => velocity s c t.n
  let dir := each fun c => directionAfter (t.dir.get c) (v.get c)
  { s with
    w.tr :=
      { t with
        nSample := t.n
        clsSample := t.cls
        u := u
        paid := paid
        stretch := each fun c => (paid.get c).map fun p => stretchOf s c (t.cls.get c) p
        x := each fun c => t.origin.map fun o => rawPosition s c o t.n + t.k.get c
        v := v
        dir := dir
        history := (historyEntry s dir :: t.history).take Config.historyDepth
        window := (t.n :: t.window).take Config.windowDepth
        negative := (u.a.any (· < 0)) || (u.b.any (· < 0)) } }

/-! ## The direction of travel -/

/-- A's direction in the present leg; a survey run's is DOWN (R61, R91). -/
def legDir (s : State) : Dir := (s.w.seq.leg.map (·.dir)).getD .down

/-- A conveyance's direction, given A's. -/
def dirFor (c : Conv) (d : Dir) : Dir :=
  match c with
  | .a => d
  | .b => d.opposite

/-! ## Marker expectation (R21, R22) -/

/-- A point's learned depth for a direction. -/
def depthFor (e : Learned) (d : Dir) : Int := if d = .up then e.up else e.down

/-- Whether a point is skipped for expectation in a compartment (R21). -/
def isSkipped (s : State) (c : Conv) (n : Nat) : Bool :=
  let p := peerOf s n
  statusOf p == .silent || statusOf p == .conflict || showsUnfitted p (compOf s c)

/-- The next learned point ahead of a depth that is not skipped, unarmed (R21). -/
def nextExpected (s : State) (c : Conv) (depth : Int) : Option Expectation :=
  let d := dirFor c (legDir s)
  let ahead := (s.w.tr.learned.get c).filter fun e =>
    0 < (depthFor e d - depth) * d.sign && !isSkipped s c e.node
  (leastBy (fun e => apart (depthFor e d) depth) ahead).map fun e =>
    { node := e.node, depth := depthFor e d, armed := false }

/-- The expectations set on entry to RUNNING (R21). -/
def setExpectations (s : State) : State :=
  { s with w.tr.expect := each fun c => (s.w.tr.x.get c).bind (nextExpected s c) }

/-- Whether an expectation must move on without a condition: its point is skipped, or its entry is gone, as the sample
finds it (R21). A point that was skipped between two samples, and is so no longer, keeps the expectation (DESIGN CHOICE,
log 63). -/
def expectationGone (s : State) (c : Conv) (e : Expectation) : Bool :=
  isSkipped s c e.node || (learnedOf s c e.node).isNone

/-- A conveyance's expectation evaluated at a sample, moving on as often as it must; with whether a marker was
missed (R21, R22). An expectation met with X already beyond D, by no more than 2 × marker window, is armed: R22 arms
one as X comes within that distance before D and is silent there (DESIGN CHOICE, log 48). -/
def followExpectation (s : State) (c : Conv) (x : Int) : Nat → Option Expectation → Bool → Option Expectation × Bool
  | 0, e, missed => (e, missed)
  | _ + 1, none, missed => (none, missed)
  | fuel + 1, some e, missed =>
    let past := (x - e.depth) * (dirFor c (legDir s)).sign
    let reach : Int := 2 * (wcfg s).markerWindow
    if expectationGone s c e then followExpectation s c x fuel (nextExpected s c e.depth) missed
    else if reach < past then followExpectation s c x fuel (nextExpected s c e.depth) true
    else (some { e with armed := e.armed || -reach ≤ past }, missed)

/-- A conveyance's expectation at a sample; a learned table has at most 32 points to pass (R22, R67). -/
def expectationAt (s : State) (c : Conv) : Option Expectation × Bool :=
  match s.w.tr.x.get c with
  | none => (s.w.tr.expect.get c, false)
  | some x => followExpectation s c x (Config.learnedDepth + 1) (s.w.tr.expect.get c) false

/-- Missed-marker supervision at a sample: MARKER_MISSED is raised once (R22). -/
def followMarkers (s : State) : State :=
  let a := expectationAt s .a
  let b := expectationAt s .b
  let s1 := { s with w.tr.expect := ⟨a.1, b.1⟩ }
  if a.2 || b.2 then raiseEvent .markerMissed s1 else s1

/-- An admitted pass seen while its point is expected and armed (R22). -/
def markSeen (c : Conv) (n : Nat) (s : State) : State :=
  match s.w.tr.expect.get c with
  | none => s
  | some e =>
    if e.node = n ∧ e.armed = true then
      { s with w.tr.expect := s.w.tr.expect.set c (nextExpected s c e.depth) }
    else s

/-! ## Marker correction (R17 to R19) -/

/-- The history entry at which a pass happened (R18). -/
def passEntry (s : State) (age : Nat) : Option HistoryEntry :=
  if age < Config.ageLimit then s.w.tr.history[(age + 6) / 2]? else none

/-- A pass located in the history: its uncorrected depth and the conveyance's direction there (R18). -/
def locatePass (s : State) (c : Conv) (age : Nat) : Option (Int × Dir) :=
  (passEntry s age).bind fun e => e.x.bind fun x =>
    if e.dir.get c = .none then none else some (x.get c, e.dir.get c)

/-- What a located pass does: K corrected, or TRACKING (R19). -/
inductive Correction where
  | accepted (k : Int)
  | refused
  deriving DecidableEq, Repr

/-- The decision on a located pass, from the deviation and the K in force (R19). -/
def correctionOf (window limit : Nat) (d k : Int) : Correction :=
  if d.natAbs ≤ window ∧ (k + d).natAbs ≤ limit then .accepted (k + d) else .refused

/-- The correction that an admitted pass makes, if it can be located (R18, R19). -/
def passCorrection (s : State) (c : Conv) (e : Learned) (age : Nat) : Option Correction :=
  (locatePass s c age).map fun p =>
    let k := s.w.tr.k.get c
    correctionOf (wcfg s).markerWindow (wcfg s).correctionLimit (depthFor e p.2 - (p.1 + k)) k

/-- Whether a leg begun by a resume is under way (R91). -/
def inResumedLeg (s : State) : Bool := s.w.seq.leg.any fun g => g.kind == .resume

/-- An accepted correction; in a resumed leg it is a confirming marker and lifts the RESUMED cap (R19, R35). -/
def acceptCorrection (c : Conv) (k : Int) (s : State) : State :=
  let s1 := { s with w.tr.k := s.w.tr.k.set c k }
  if inResumedLeg s then { s1 with w.env.capResumed := none } else s1

/-- An admitted pass (R17 to R19, R22). -/
def admitPass (c : Conv) (e : Learned) (age : Nat) (s : State) : State :=
  let s1 := markSeen c e.node s
  match passCorrection s c e age with
  | none => s1
  | some (.accepted k) => acceptCorrection c k s1
  | some .refused => raiseEvent .tracking s1

/-- A MARKER frame outside SURVEY: admitted, or ignored (R17). It is admitted from the moment the validated flag is yes,
so a pass between the survey's completion and the next leg, with which R66 has correction begin, corrects K at once
(DESIGN CHOICE, log 57). -/
def correctByMarker (n : Nat) (c : Conv) (age : Nat) (s : State) : State :=
  match learnedOf s c n with
  | none => s
  | some e =>
    if s.w.tr.validated && statusOf (peerOf s n) != .conflict then admitPass c e age s else s

/-! ## Encoder supervision (R23 to R25) -/

/-- Whether the stall timer's two conditions hold (R24). -/
def stallRuns (s : State) : Bool := isOn s.w.panel.driveRunning && (wcfg s).creep < s.w.env.refSpeed

/-- The stall timer started or stopped as its conditions now stand (R24). -/
def refreshStall (s : State) : State :=
  if stallRuns s then { s with w.tr.stall := some (s.w.tr.stall.getD 0) }
  else { s with w.tr.stall := none, w.tr.stallRaised := false }

/-- A change of N restarts the stall timer and ends a stall (R24). -/
def restartStall (s : State) : State :=
  { s with w.tr.stall := s.w.tr.stall.map fun _ => 0, w.tr.stallRaised := false }

/-- Whether an ENCODER condition arises at this sample or has arisen since the latest one (R25). -/
def encoderArises (s : State) : Bool :=
  s.w.tr.negative || s.w.tr.stallRaised || s.w.tr.stallSeen || s.w.flt.atSample.encoder

/-- The validated flag at a sample: cleared where an ENCODER condition arises (R25). -/
def checkEncoder (s : State) : State :=
  { s with w.tr.validated := s.w.tr.validated && !encoderArises s, w.tr.stallSeen := false }

/-! ## Learned entries (R67) -/

/-- The entry of a point from its announced depths and the located depth in the survey direction (R67). -/
def learnedFrom (p : SurveyPoint) (d : Dir) (depth : Int) : Learned :=
  if d = .up then
    { node := p.node, down := depth + (p.down - p.up), up := depth, stop := depth + (p.down - p.up) + (p.stop - p.down) }
  else
    { node := p.node, down := depth, up := depth + (p.up - p.down), stop := depth + (p.stop - p.down) }

/-- An entry put in its place in depth order, one per point, at most 32 (R67). R67 does not say which of an entry's depths
gives the order: the model takes the learned DOWN depth, and of equal ones puts the newer entry last (DESIGN CHOICE,
log 20). -/
def putLearned (e : Learned) (t : List Learned) : List Learned :=
  (insertBy (fun x => x.down) e (t.filter fun x => x.node != e.node)).take Config.learnedDepth

/-- A point learned for a conveyance. -/
def learn (c : Conv) (e : Learned) (s : State) : State :=
  { s with w.tr.learned := s.w.tr.learned.set c (putLearned e (s.w.tr.learned.get c)) }

/-- The learned marker tables emptied. -/
def emptyLearned (s : State) : State := { s with w.tr.learned := ⟨[], []⟩ }

end Sys2Proof.Machine
end

