-- ==== Sys2Proof/Machine/Envelope.lean ====
section
/-! DEFINITION. The envelope unit (chapter 2): the ceiling's terms, the caps, the slow zones and their admission,
the reference, and supervision. -/

namespace Sys2Proof.Machine

open Sys2Proof

/-! ## Governing states and directions (R28) -/

/-- Whether a wind state is one of a leg or of the survey run. -/
def isLegState : WindState → Bool
  | .preparing => true
  | .running => true
  | .stopping => true
  | .survey => true
  | _ => false

/-- Whether the envelope governs motion (R28). -/
def governs (s : State) : Bool :=
  isLegState s.w.seq.wind || (s.w.seq.wind == .inspection && s.w.seq.permit)

/-- A's envelope direction (R28). -/
def envDir (s : State) : Dir :=
  if isLegState s.w.seq.wind then legDir s
  else if s.w.seq.wind = .inspection then inputDirOf s else .none
where
  /-- The direction that the UP and DOWN inputs give. -/
  inputDirOf (s : State) : Dir :=
    match isOn s.w.panel.up, isOn s.w.panel.down with
    | true, false => .up
    | false, true => .down
    | _, _ => .none

/-- A conveyance's envelope direction (R28). -/
def envDirOf (s : State) (c : Conv) : Dir := dirFor c (envDir s)

/-- The greater of the two speeds. -/
def topSpeedNow (s : State) : Nat := max (s.w.tr.v.a).natAbs (s.w.tr.v.b).natAbs

/-- The distance travelled since a latched drum count (R30). -/
def travelled (s : State) (n : Count) : Nat :=
  match s.w.tr.origin with
  | some o =>
    let d : Int := paidAt s .a o s.w.tr.nSample - paidAt s .a o n
    if governs s then (d * (envDir s).sign).toNat else d.natAbs
  | none => (countDiff s.w.tr.nSample n).natAbs * lamMax s .a / (wcfg s).countsPerRev / 1000

/-! ## The stop term (R33) -/

/-- The survey run's stop target (R61). -/
def surveyTarget (s : State) : Option Int :=
  s.w.seq.survey.bottom.map fun p =>
    match stopDepth s .a p.node with
    | some t => t
    | none => p.stop + (wcfg s).surveyWindow

/-- The target conveyances with their stop depths (R33, R61). The STOPPING that follows a survey failure holds no leg, and
R61 gives the survey's target in SURVEY alone, so the model has no stop term and no OVERRUN there (DESIGN CHOICE,
log 55). -/
def stopTargets (s : State) : List (Conv × Int) :=
  if s.w.seq.wind = .survey then ((surveyTarget s).map fun t => (Conv.a, t)).toList
  else if isLegState s.w.seq.wind then
    match s.w.seq.leg with
    | none => []
    | some g => (g.target.a.map fun t => (Conv.a, t)).toList ++ (g.target.b.map fun t => (Conv.b, t)).toList
  else []

/-- The distance of a target conveyance to its stop (R33). -/
def distanceTo (s : State) (t : Conv × Int) : Option Int :=
  (s.w.tr.x.get t.1).map fun x => (t.2 - x) * (envDirOf s t.1).sign

/-- The distances to the stops of the targets whose X is known. -/
def stopDistances (s : State) : List Int := (stopTargets s).filterMap (distanceTo s)

/-- The stop term of one target at a distance (R33). -/
def stopValue (w : WinderConfig) (d : Int) : Nat :=
  if (w.creepDist : Int) < d then curve (d - w.creepDist) w.creep w.aRet
  else if -(w.tol : Int) ≤ d then w.creep
  else 0

/-- The least of a list of values. -/
def least : List Nat → Option Nat
  | [] => none
  | x :: xs =>
    match least xs with
    | none => some x
    | some y => some (min x y)

/-! ## The other terms -/

/-- The top term (R31). -/
def topTerm (s : State) : Nat :=
  min (wcfg s).maximum (min (classTop s .a s.w.tr.cls.a) (classTop s .b s.w.tr.cls.b))

/-- The end term of one conveyance (R34). -/
def endValue (s : State) (c : Conv) : Option Nat :=
  match envDirOf s c, s.w.tr.x.get c with
  | .down, some x => some (curve ((conveyance s c).lower - x) 0 (wcfg s).aRet)
  | .up, some x => some (curve (x - (conveyance s c).upper) 0 (wcfg s).aRet)
  | _, _ => none

/-- The end term (R34). -/
def endTerm (s : State) : Option Nat :=
  if s.w.tr.validated then least ((endValue s .a).toList ++ (endValue s .b).toList) else none

/-- A cap's value at the present sample (R36). -/
def capValue (s : State) (c : Cap) : Nat :=
  if c.flat || c.v0 ≤ c.value then c.value
  else max c.value (fallFrom c.v0 (wcfg s).aRet (travelled s c.n))

/-- The cap term: the lowest of the sources in force (R35). -/
def capTerm (s : State) : Option Nat :=
  least ((s.w.env.capMode.toList ++ s.w.env.capResumed.toList ++ s.w.env.capSlow.toList).map (capValue s))

/-- The acceleration term from its latch (R32). -/
def accTerm (s : State) (l : Latch) : Nat := curve (travelled s l.n) l.v0 (wcfg s).aAcc

/-- A falling term from its latch (R40, R41). -/
def fallTerm (s : State) (l : Latch) : Nat := fallFrom l.v0 (wcfg s).aRet (travelled s l.n)

/-- The passing term (R39). -/
def passingTerm (s : State) : Option Nat :=
  if (wcfg s).passWindow = 0 then none
  else
    match s.w.tr.x.a, s.w.tr.x.b, envDir s with
    | some xa, some xb, .down => passing xa xb (xa < xb)
    | some xa, some xb, .up => passing xa xb (xb < xa)
    | _, _, _ => none
where
  /-- The term, given whether the descending conveyance is the shallower. -/
  passing (xa xb : Int) (approaching : Bool) : Option Nat :=
    let w := wcfg s
    let gap : Int := apart xa xb
    if approaching then some (curve (Int.fdiv (gap - w.passWindow) 2) w.passSpeed w.aRet)
    else if gap < w.passWindow then some w.passSpeed
    else none

/-! ## Slow zones (R37, R38) -/

/-- The value of a zone for a conveyance at X moving in a direction (R38). -/
def zoneAt (z : Zone) (aRet : Nat) (x : Int) : Dir → Option Nat
  | .down =>
    if x < z.upper then some (curve (z.upper - x) z.speed aRet)
    else if x ≤ z.lower then some z.speed else none
  | .up =>
    if z.lower < x then some (curve (x - z.lower) z.speed aRet)
    else if z.upper ≤ x then some z.speed else none
  | .none => none

/-- The value of a zone for the conveyance of its compartment (R38). -/
def zoneValue (s : State) (z : Zone) : Option Nat :=
  (convOf s z.comp).bind fun c => (s.w.tr.x.get c).bind fun x => zoneAt z (wcfg s).aRet x (envDirOf s c)

/-- The slow-zone term (R38). -/
def zoneTerm (s : State) : Option Nat := least (s.w.env.zones.filterMap (zoneValue s))

/-- The zone's shape from a landing's geometry record and its learned entry (R37). -/
def zoneShape (s : State) (p : Peer) (c : Conv) : Option Zone :=
  (geometryOf p (compOf s c)).bind fun g =>
    match g.point, g.half with
    | .landing _, 0 => none
    | .landing _, h + 1 =>
      let centre := if statusOf p = .conflict then g.stop else (stopDepth s c p.node).getD g.stop
      let half : Int := 100 * (h + 1)
      some
        { node := p.node, comp := compOf s c, centre := centre, upper := centre - half, lower := centre + half
          speed := max (wcfg s).creep (g.zoneSpeed * 100) }
    | _, _ => none

/-- Whether a zone is the one of a landing and compartment. -/
def sameZone (z y : Zone) : Bool := z.node == y.node && z.comp == y.comp

/-- Whether the offer of a zone passes its test against the latest sample's X and v (R43). A zone for whose
conveyance X is not known has no value to test (log 31). -/
def zonePasses (s : State) (z : Zone) : Bool :=
  if !governs s then true
  else
    match zoneValue s z, convOf s z.comp with
    | some v, some c => (s.w.tr.v.get c).natAbs ≤ v
    | _, _ => true

/-- Whether the restrictions have room for a zone offered: while 28 are held, every offer fails, that of a changed
shape included (R44). -/
def zoneRoom (s : State) : Bool := s.w.env.zones.length < Config.zoneDepth

/-- A zone in its place in depth order, instead of the one of its landing and compartment (R44); of zones whose centres are
equal, such as one landing's in both compartments, the later admitted stands last (DESIGN CHOICE, log 78). -/
def putZone (z : Zone) (zs : List Zone) : List Zone :=
  insertBy (fun y => y.centre) z (zs.filter fun y => !sameZone z y)

/-- One offer of a zone: admitted, or LATE_RESTRICTION in a governing state other than STOPPING (R43, R44). -/
def offerZone (z : Zone) (s : State) : State :=
  if s.w.env.zones.contains z then s
  else if zonePasses s z && zoneRoom s then { s with w.env.zones := putZone z s.w.env.zones }
  else if governs s && s.w.seq.wind != .stopping then raiseEvent .lateRestriction s
  else s

/-- The zone of one compartment offered, if the landing forms one there. -/
def offerFor (p : Peer) (c : Conv) (s : State) : State :=
  match zoneShape s p c with
  | some z => offerZone z s
  | none => s

/-- The zones of a landing that reports shaft work offered, and those of one that does not removed (R43, R44). Of two
zones that one STATE offers, that of A's compartment is offered first (DESIGN CHOICE, log 64). -/
def zonesByState (n : Nat) (work : Bool) (s : State) : State :=
  if work then offerFor (peerOf s n) .b (offerFor (peerOf s n) .a s)
  else { s with w.env.zones := s.w.env.zones.filter fun z => z.node != n }

/-- The zone of a compartment removed by an ANNOUNCE of half-width 0 (R44). -/
def zonesByAnnounce (n comp half : Nat) (s : State) : State :=
  if half = 0 then { s with w.env.zones := s.w.env.zones.filter fun z => !(z.node == n && z.comp == comp) } else s

/-! ## Latches and caps at the sample (R32, R35, R36, R40, R41) -/

/-- A SLOW cap raised at this sample (R35, R36): where no origin exists it applies at its value. -/
def raiseSlow (s : State) (kept : Bool) : Cap :=
  { value := (wcfg s).inspection, n := s.w.tr.nSample, v0 := topSpeedNow s
    flat := s.w.tr.origin.isNone, kept := kept }

/-- Whether an event-like kind is ACTIVE under SLOW at this sample: TRACKING from the tracker, or
MARKER_MISSED (R35). -/
def eventSlow (s : State) : Bool :=
  (s.w.flt.atSample.tracking && activeUnder s .slow .tracking)
    || (s.w.flt.atSample.markerMissed && activeUnder s .slow .markerMissed)

/-- Whether a kind whose condition lasts is ACTIVE under SLOW: PEER_SILENT, or a landing's TRACK_DOUBT (R35). -/
def lastingSlow (s : State) : Bool :=
  activeUnder s .slow .peerSilent || (landingDoubt s && activeUnder s .slow .tracking)

/-- A SLOW cap at a change into or out of the governing states: what a lasting kind has raised in one stays with its raising
point (R35), and any other cap goes, one raised outside them among these (R117). -/
def lastingCap (c : Option Cap) : Option Cap := c.filter fun c => !c.kept

/-- Whether a SLOW cap in force stays in force at a sample (R35): one that an event-like kind has raised or kept while the
envelope governs, one that a lasting kind has raised while such a kind is ACTIVE or an event-like one keeps it from now on. At
the sample at which the last lasting kind ceases and an event-like kind becomes ACTIVE, it is kept with its raising point, not
lifted and raised anew (DESIGN CHOICE, log 77). A cap raised outside the governing states has lapsed (R117). -/
def slowStays (s : State) (c : Cap) : Bool :=
  if c.kept then governs s else lastingSlow s || (governs s && eventSlow s)

/-- A SLOW cap that stays, with its value and its raising point; an event-like kind in a governing state keeps it from now
on (R35). -/
def keepSlow (s : State) (c : Cap) : Cap := { c with kept := c.kept || (governs s && eventSlow s) }

/-- The SLOW cap raised at a sample, if a kind is ACTIVE under SLOW (R35). Outside the governing states it lapses after that
sample, whichever kind it is (R117), so that one raised in a governing state alone can be a lasting kind's that stays
(DEDUCED, log 71). -/
def newSlow (s : State) : Option Cap :=
  if eventSlow s || lastingSlow s then some (raiseSlow s (eventSlow s || !governs s)) else none

/-- The SLOW cap at a sample (R35): the one in force where it stays, otherwise one raised at this sample. -/
def slowAt (s : State) : Option Cap :=
  match s.w.env.capSlow.filter (slowStays s) with
  | some c => some (keepSlow s c)
  | none => newSlow s

/-- A cap that applies at its value from the sample of its raising (R36). -/
def flatCap (s : State) (value : Nat) : Cap :=
  { value := value, n := s.w.tr.nSample, v0 := topSpeedNow s, flat := true, kept := false }

/-- The halt latch at a sample: taken at the first in STOPPING (R40). -/
def haltAt (s : State) : Option Latch :=
  if s.w.seq.wind = .stopping then
    some (s.w.env.halt.getD { n := s.w.tr.nSample, v0 := min (s.w.tr.v.a).natAbs s.w.env.ceiling })
  else none

/-- The run-down latch at a sample: taken at the first outside the governing states (R41). -/
def runDownAt (s : State) : Option Latch :=
  if governs s then none else some (s.w.env.runDown.getD { n := s.w.tr.nSample, v0 := topSpeedNow s })

/-- A zone as a restriction, where it has a value for its conveyance: not yet passed beyond its far edge (R38). -/
def zoneApplies (s : State) (z : Zone) : Option Restriction :=
  (zoneValue s z).map fun _ => .zone z.node z.comp

/-- The restrictions that this sample's ceiling counts: the cap term, each admitted zone that applies, and the passing
term (R32, R35, R38, R39). The cap term is one restriction: it is present while any source is in force (R35, R45). -/
def restrictionsAt (s : State) : List Restriction :=
  if governs s then
    ((capTerm s).map fun _ => Restriction.cap).toList
      ++ s.w.env.zones.filterMap (zoneApplies s)
      ++ ((passingTerm s).map fun _ => Restriction.passing).toList
  else []

/-- Whether a restriction of the previous sample has been left out: the cap term with its last source lifted (R45), a
zone removed or passed, whatever other zones still apply (log 17), or the passing term ceased (R32). -/
def leftOut (s : State) : Bool := s.w.env.applied.any fun r => !(restrictionsAt s).contains r

/-- Whether the acceleration start is latched again: a restriction has been left out in PREPARING, RUNNING or
SURVEY (R32). -/
def accAgain (s : State) : Bool := s.w.seq.wind != .stopping && leftOut s

/-- The acceleration start at a sample (R32). -/
def accAt (s : State) : Option Latch :=
  if isLegState s.w.seq.wind then
    match s.w.env.acc with
    | none => some { n := s.w.tr.nSample, v0 := (wcfg s).creep }
    | some l =>
      if accAgain s then some { n := s.w.tr.nSample, v0 := s.w.env.ceiling } else some l
  else none

/-! ## Evaluation (R28, R42) -/

/-- The latches and caps of this sample. -/
def latchAt (s : State) : State :=
  let s1 := { s with w.env.capSlow := slowAt s, w.env.halt := haltAt s, w.env.runDown := runDownAt s }
  { s1 with w.env.acc := accAt s1 }

/-- The terms of this sample; outside the governing states the run-down term alone (R28). -/
def termsAt (s : State) : Terms :=
  if governs s then
    { top := some (topTerm s)
      cap := capTerm s
      acc := s.w.env.acc.map (accTerm s)
      stop := least ((stopDistances s).map (stopValue (wcfg s)))
      limit := endTerm s
      zone := zoneTerm s
      passing := passingTerm s
      halt := s.w.env.halt.map (fallTerm s)
      runDown := none }
  else { PowerUp.terms with runDown := s.w.env.runDown.map (fallTerm s) }

/-- The terms present. -/
def Terms.present (t : Terms) : List Nat :=
  t.top.toList ++ t.cap.toList ++ t.acc.toList ++ t.stop.toList ++ t.limit.toList ++ t.zone.toList
    ++ t.passing.toList ++ t.halt.toList ++ t.runDown.toList

/-- The ceiling: the minimum of the terms present (R28). -/
def Terms.minimum (t : Terms) : Nat := (least t.present).getD 0

/-- The phase of a sample (R42). -/
def phaseAt (s : State) (t : Terms) (c : Nat) : Phase :=
  match s.w.seq.wind with
  | .stopping => .stopping
  | .preparing => named
  | .running => named
  | .survey => named
  | _ => .none
where
  /-- The phase of a moving leg, its cases in order. -/
  named : Phase :=
    if c ≤ (wcfg s).creep then .creep
    else if t.stop = some c then .retard
    else if t.acc = some c then .accel
    else .full

/-- The ceiling, its terms, the restrictions it counts and the phase of this sample. -/
def formCeiling (s : State) : State :=
  let t := termsAt s
  { s with w.env.terms := t, w.env.applied := restrictionsAt s, w.env.ceiling := t.minimum, w.env.phase := phaseAt s t t.minimum }

/-! ## Supervision (R49 to R52) -/

/-- The supervision ceiling (R49). -/
def supervisionCeiling (w : WinderConfig) (c : Nat) : Nat := c + max (c * w.tolPct / 100) w.tolFloor

/-- Overspeed supervision (R50). -/
def superviseSpeed (s : State) : State :=
  if supervisionCeiling (wcfg s) s.w.env.ceiling < topSpeedNow s then raiseEvent .overspeed s else s

/-- Whether a conveyance lies above its upper limit (R51). -/
def aboveUpper (s : State) (c : Conv) : Bool := (s.w.tr.x.get c).any fun x => x < (conveyance s c).upper

/-- Whether a conveyance lies below its lower limit (R51). -/
def belowLower (s : State) (c : Conv) : Bool := (s.w.tr.x.get c).any fun x => (conveyance s c).lower < x

/-- Whether either conveyance lies beyond a limit (R51). -/
def beyondLimit (s : State) : Bool :=
  aboveUpper s .a || belowLower s .a || aboveUpper s .b || belowLower s .b

/-- A conveyance's overwind memory at a sample (R108). -/
def memoryAt (s : State) (c : Conv) : OverwindMemory :=
  if aboveUpper s c then .upper
  else if belowLower s c then .lower
  else
    match s.w.seq.overwind.get c, s.w.tr.x.get c with
    | .upper, some x => if (conveyance s c).upper + Config.overwindClear ≤ x then .none else .upper
    | .lower, some x => if x ≤ (conveyance s c).lower - Config.overwindClear then .none else .lower
    | m, _ => m

/-- Overwind supervision, with the overwind memories (R51, R108). -/
def superviseLimits (s : State) : State :=
  { s with w.flt.overwind := beyondLimit s, w.seq.overwind := each (memoryAt s) }

/-- Overrun supervision: a target more than the landing tolerance past its stop (R52). -/
def superviseStop (s : State) : State :=
  { s with w.flt.overrun := (stopDistances s).any fun d => d < -((wcfg s).tol : Int) }

/-! ## Completion and the reference (R46, R47) -/

/-- Whether a target conveyance has arrived: within tolerance of its stop at creep speed or less (R47). -/
def targetDone (s : State) (t : Conv × Int) : Bool :=
  (distanceTo s t).any (fun d => d.natAbs ≤ (wcfg s).tol) && (s.w.tr.v.get t.1).natAbs ≤ (wcfg s).creep

/-- Whether the completion flag is set at this sample (R47). -/
def completes (s : State) : Bool :=
  (s.w.seq.wind == .running || s.w.seq.wind == .survey)
    && !(stopTargets s).isEmpty && (stopTargets s).all (targetDone s)

/-- The start window in ms (R91, R205). -/
def startWindow (s : State) : Nat := 1000 * (wcfg s).startWindow

/-- The completion flag at a sample; setting it starts the completion wait (R47, R66, R101). -/
def flagCompletion (s : State) : State :=
  if completes s && !s.w.env.completion then
    { s with w.env.completion := true, w.seq.completionWait := some (startWindow s) }
  else s

/-- The reference of this sample (R46). -/
def referenceOf (s : State) : Nat × Dir :=
  if !s.w.seq.permit || s.w.env.completion then (0, .none)
  else
    match s.w.seq.wind with
    | .preparing => (min s.w.env.ceiling (wcfg s).creep, legDir s)
    | .running => (s.w.env.ceiling, legDir s)
    | .stopping => (s.w.env.ceiling, legDir s)
    | .survey => (s.w.env.ceiling, legDir s)
    | .inspection => if envDir s = .none then (0, .none) else (s.w.env.ceiling, envDir s)
    | _ => (0, .none)

/-- The reference set on the drive port (R46, R48), and held as the one that MOTION carries (R111). -/
def setReference (s : State) : State :=
  { s with
    w.env.refSpeed := (referenceOf s).1, w.env.refDir := (referenceOf s).2
    w.env.shownSpeed := (referenceOf s).1, w.env.shownDir := (referenceOf s).2 }

/-- The envelope's evaluation at a position sample (R28): latches, ceiling, supervision, completion, reference. -/
def evaluateEnvelope (s : State) : State :=
  setReference (flagCompletion (superviseStop (superviseLimits (superviseSpeed (formCeiling (latchAt s))))))

end Sys2Proof.Machine
end

