-- ==== Sys2Proof/Machine/Calls.lean ====
section
/-! DEFINITION. Calls and cage custody (chapter 4): the parked level, the tests of a CALL, answers and dropping,
the service order and READY pairs, claims and releases, and the ends of custody. -/

namespace Sys2Proof.Machine

open Sys2Proof

/-! ## Where the cage stands (R69) -/

/-- The cage's compartment. -/
def cageComp (s : State) : Nat := compOf s .a

/-- The level at which a peer's landing stops the cage, if the cage is parked at it (R69). -/
def parkedBy (s : State) (p : Peer) : Option (Nat × Nat) :=
  (geometryOf p (cageComp s)).bind fun g =>
    match g.point, stopDepth s .a p.node with
    | .landing l, some t =>
      if g.hasLanding && statusOf p != .conflict && within s .a t then some (l, p.node) else none
    | _, _ => none

/-- How far a qualifying landing's stop lies from the cage, with its level to decide between equals (R69). -/
def parkedMeasure (s : State) (q : Nat × Nat) : Nat :=
  match stopDepth s .a q.2, s.w.tr.x.a with
  | some t, some x => apart x t * 32 + q.1
  | _, _ => 0

/-- The parked level of this sample, with its qualifying landing (R69). -/
def parkedAt (s : State) : Option (Nat × Nat) :=
  if s.w.seq.wind = .idle ∧ isRock s = false then leastBy (parkedMeasure s) (s.peers.filterMap (parkedBy s)) else none

/-- The parked level. -/
def parkedLevel (s : State) : Option Nat := s.w.seq.parked.map (·.1)

/-! ## Calls held (R70, R75) -/

/-- The served level of a landing's call: the destination of a DISPATCH, the origin level of any other (R72). -/
def servedLevel (c : Call) : Nat := c.dest.getD c.level

/-- The landing that announces a call's served level (R72). -/
def servedLanding (s : State) (c : Call) : Option Peer := landingAt s (cageComp s) (servedLevel c)

/-- Whether two calls are the same: kind, origin and destination (R70, R75). -/
def sameCall (c d : Call) : Bool := c.kind == d.kind && c.origin == d.origin && c.dest == d.dest

/-- The calls of a suspended-wind record. -/
def recordCalls : Option Record → List Call
  | some r =>
    match r.kind with
    | .moving m => m.calls
    | .parked _ => []
  | none => []

/-- Every call held: in the list, in the slot, and in a record (R75). -/
def heldCalls (s : State) : List Call := s.w.seq.list ++ s.w.seq.slot ++ recordCalls s.w.seq.record

/-- The sequence counter after an entry has taken its value (R70). -/
def nextSeq (n : Nat) : Nat := if n = 65535 then 1 else n + 1

/-- Whether the list is full (R76). -/
def listFull (s : State) : Bool :=
  Config.listDepth ≤ s.w.seq.list.length + (if s.w.seq.wind = .preparing then s.w.seq.slot.length else 0)

/-! ## Answers and dropping (R77, R78) -/

/-- The ANSWER to a call's origin. -/
def answerTo (origin : Nat) (k : CallKind) (r : Reply) : AnswerFrame := { target := origin, kind := some k, reply := r }

/-- The DROPPED answer of an entry. -/
def droppedAnswer (c : Call) : AnswerFrame := answerTo c.origin c.kind (.dropped c.seq)

/-- An entry's dropping mark set (R77). -/
def markEntry (c : Call) (s : State) : State :=
  { s with
    w.seq.list := s.w.seq.list.map fun e => if e.seq = c.seq ∧ sameCall e c = true then { e with mark := some s.w.seq.markCount } else e
    w.seq.markCount := s.w.seq.markCount + 1 }

/-- An entry removed from the list. -/
def removeEntry (c : Call) (s : State) : State :=
  { s with w.seq.list := s.w.seq.list.filter fun e => !(e.seq == c.seq && sameCall e c) }

/-- An entry leaving the list unserved: answered DROPPED and removed together, or given the dropping mark (R77). -/
def dropEntry (c : Call) (s : State) : State :=
  if c.mark.isSome then s
  else if answerRoom 1 s then queueAnswer (droppedAnswer c) (removeEntry c s)
  else markEntry c s

/-- Every entry that a test finds, leaving the list unserved (R78). Where several leave at one event, they are answered or
given their marks in list order, head first (DESIGN CHOICE, log 58). -/
def dropWhere (p : Call → Bool) (s : State) : State := (s.w.seq.list.filter p).foldl (fun t c => dropEntry c t) s

/-- The earliest-marked dropping entry (R77). -/
def earliestMarked (l : List Call) : Option Call := leastBy (fun c => c.mark.getD 0) (l.filter fun c => c.mark.isSome)

/-- A freed ANSWER place given to the earliest-marked dropping entry (R77). -/
def serveDropping (s : State) : State :=
  match earliestMarked s.w.seq.list with
  | some c => if answerRoom 1 s then queueAnswer (droppedAnswer c) (removeEntry c s) else s
  | none => s

/-! ## The custody pair (R85, R88) -/

/-- Whether a node is the custodian or the last custodian. -/
def isEntitled (s : State) (n : Nat) : Bool := s.w.seq.custodian == some n || s.w.seq.last == some n

/-- DISPATCH entries whose origin is neither custodian nor last custodian, leaving the list (R78, R88). -/
def purgeDispatch (s : State) : State :=
  dropWhere (fun c => c.kind == .dispatch && !isEntitled s c.origin) s

/-- The custody pair set; the release hold stops when no last custodian is left (R87). -/
def setPair (custodian last : Option Nat) (s : State) : State :=
  { s with
    w.seq.custodian := custodian, w.seq.last := last
    w.seq.releaseHold := if last.isSome then s.w.seq.releaseHold else none }

/-- The custody pair changed, and the DISPATCH entries that lose their entitlement removed (R78). -/
def changePair (custodian last : Option Nat) (s : State) : State :=
  if s.w.seq.custodian = custodian ∧ s.w.seq.last = last then s else purgeDispatch (setPair custodian last s)

/-! ## The tests of a CALL (R71 to R76, R82) -/

/-- What a CALL that is taken is answered. -/
inductive Verdict where
  | refused (r : Reason)
  | merged (seq : Nat)
  | complete
  | accepted
  deriving DecidableEq, Repr

/-- The class that a DISPATCH brings the cage: one that a cage may hold (R13, R15). R15 and R70 give EMPTY, MEN or
MATERIAL, but a frame may carry the code of FULL, of FIXED or of UNKNOWN itself; each is taken as UNKNOWN (DESIGN
CHOICE, log 40). -/
def cageClass : LoadClass → LoadClass
  | .empty => .empty
  | .men => .men
  | .material => .material
  | .unknown => .unknown
  | .full => .unknown
  | .fixed => .unknown

/-- A CALL as the entry it would become (R70). -/
def callEntry (s : State) (n : Nat) : Ask → Option Call
  | .nothing => none
  | .fetch l => some (entry .fetch l 0 none none)
  | .dispatch l d cls => some (entry .dispatch l 0 (some d) (some (cageClass cls)))
  | .relevel l => some (entry .relevel l 0 none none)
  | .ready comp => some (entry .ready 0 comp none none)
where
  /-- An entry with the counter's value as its sequence number. -/
  entry (k : CallKind) (l comp : Nat) (dest : Option Nat) (cls : Option LoadClass) : Call :=
    { kind := k, origin := n, level := l, comp := comp, dest := dest, cls := cls, seq := s.w.seq.seqCounter
      mark := none }

/-- Step 1: a landing's call to a rock winder, or READY to a service winder (R71). -/
def wrongKind (s : State) (c : Call) : Bool := isRock s != (c.kind == .ready)

/-- Whether a peer stops the cage at a level: its record says so and it is not CONFLICT (R72). -/
def stopsCageAt (s : State) (p : Peer) (level : Nat) : Bool :=
  statusOf p != .conflict
    && (geometryOf p (cageComp s)).any fun g => g.point == .landing level && g.hasLanding

/-- Whether a peer's role is LANDING (R72). -/
def isLandingPeer (p : Peer) : Bool :=
  match p.role with
  | .point (.landing _) => true
  | _ => false

/-- Whether a peer's role is LOADER or TIPPER (R82). -/
def isSkipPeer (p : Peer) : Bool := p.role == .point .loader || p.role == .point .tipper

/-- Step 2 for a landing's call (R72). -/
def landingUnknown (s : State) (c : Call) : Bool :=
  !(isLandingPeer (peerOf s c.origin) && stopsCageAt s (peerOf s c.origin) c.level)
    || (c.kind == .dispatch && !(servedLanding s c).any fun p => stopsCageAt s p (servedLevel c))

/-- Step 2 for READY (R82). -/
def readyUnknown (s : State) (c : Call) : Bool :=
  let p := peerOf s c.origin
  !(isSkipPeer p && (convOf s c.comp).isSome && (geometryOf p c.comp).isSome && statusOf p != .conflict)

/-- Whether a landing is SILENT or reports itself out of service (R72, R94). -/
def isAway (p : Peer) : Bool := statusOf p == .silent || (stateOf p).any showsOutOfService

/-- Step 3 (R72). -/
def servedAway (s : State) (c : Call) : Bool := (servedLanding s c).any isAway

/-- Step 4: track or served level not surveyed (R72, R82). -/
def unsurveyed (s : State) (c : Call) : Bool :=
  !s.w.tr.validated ||
    match c.kind with
    | .ready => ((convOf s c.comp).bind fun v => learnedOf s v c.origin).isNone
    | _ => ((servedLanding s c).bind fun p => learnedOf s .a p.node).isNone

/-- Step 7: a DISPATCH of class MEN to a level not serving men (R73). -/
def classUnserved (s : State) (c : Call) : Bool :=
  c.cls == some .men
    && !((servedLanding s c).bind fun p => geometryOf p (cageComp s)).any (·.servesMen)

/-- The tracker-frame stop depth of a landing's call (R81). -/
def callTarget (s : State) (c : Call) : Option Int := (servedLanding s c).bind fun p => stopDepth s .a p.node

/-- Whether the cage stands within the relevel window of a depth and beyond tolerance of it (R74, R80). -/
def inRelevelWindow (s : State) (t : Int) : Bool :=
  s.w.tr.x.a.any fun x => apart x t ≤ (wcfg s).relevelWindow && (wcfg s).tol < apart x t

/-- Whether a RELEVEL is near (R74). -/
def isNear (s : State) (c : Call) : Bool :=
  s.w.seq.wind == .idle && (callTarget s c).any (inRelevelWindow s)

/-- The refusals of steps 1 to 8 in their order (R71). -/
def refusalOf (s : State) (c : Call) : Option Reason :=
  if wrongKind s c then some .wrongKind
  else if c.kind = .ready then
    if readyUnknown s c then some .unknownLevel
    else if unsurveyed s c then some .notSurveyed
    else none
  else if landingUnknown s c then some .unknownLevel
  else if servedAway s c then some .levelOutOfService
  else if unsurveyed s c then some .notSurveyed
  else if c.kind = .dispatch ∧ isEntitled s c.origin = false then some .notCustodian
  else if c.dest = some c.level then some .sameLevel
  else if classUnserved s c then some .classNotServed
  else if c.kind = .relevel ∧ isNear s c = false then some .notNear
  else none

/-- The verdict on a CALL (R71): its steps in order. -/
def verdictOn (s : State) (c : Call) : Verdict :=
  match refusalOf s c with
  | some r => .refused r
  | none =>
    match (heldCalls s).find? (sameCall c) with
    | some d => .merged d.seq
    | none =>
      if c.kind = .fetch ∧ parkedLevel s = some c.level then .complete
      else if listFull s then .refused .listFull
      else .accepted

/-- The list with a matched DISPATCH taking the class of the call merged into it (R75). -/
def mergeClass (c : Call) (l : List Call) : List Call :=
  l.map fun e => if e.kind = .dispatch ∧ sameCall e c = true then { e with cls := c.cls } else e

/-- The sequence counter advanced. -/
def advanceSeq (s : State) : State := { s with w.seq.seqCounter := nextSeq s.w.seq.seqCounter }

/-- An entry added at the tail of the list, the counter advancing (R70, R76). -/
def addEntry (c : Call) (s : State) : State := advanceSeq { s with w.seq.list := s.w.seq.list ++ [c] }

/-- A CALL's verdict carried out, its ANSWER queued at once (R71). -/
def answerCall (c : Call) (s : State) : State :=
  match verdictOn s c with
  | .refused r => queueAnswer (answerTo c.origin c.kind (.refused (some r))) s
  | .merged q =>
    queueAnswer (answerTo c.origin c.kind (.merged q)) { s with w.seq.list := mergeClass c s.w.seq.list }
  | .complete => queueAnswer (answerTo c.origin c.kind (.accepted 0 c.seq)) (advanceSeq s)
  | .accepted =>
    queueAnswer (answerTo c.origin c.kind (.accepted (s.w.seq.list.length + 1) c.seq)) (addEntry c s)

/-- A CALL addressed to the winder, taken while the ANSWER queue has room (R71). A CALL of no kind is heard and
nothing more (log 19). -/
def takeCall (n : Nat) (ask : Ask) (s : State) : State :=
  if answerRoom 1 s then
    match callEntry s n ask with
    | some c => answerCall c s
    | none => s
  else s

/-! ## Service order and pairs (R80, R83) -/

/-- The entries that the service order does not pass over. -/
def liveCalls (s : State) : List Call := s.w.seq.list.filter fun c => c.mark.isNone

/-- The candidate of a service winder, before its check (R80). -/
def serviceOrder (s : State) : Option Call :=
  let live := liveCalls s
  (live.find? fun c => c.kind == .dispatch && isEntitled s c.origin).or
    (if s.w.seq.releaseHold.isSome then none
     else (live.find? fun c => c.kind == .relevel).or (live.find? fun c => c.kind == .fetch))

/-- Whether a candidate fails its check (R80). -/
def candidateFails (s : State) (c : Call) : Bool :=
  match servedLanding s c, callTarget s c with
  | some p, some t => !stopsCageAt s p (servedLevel c) || (c.kind == .relevel && !inRelevelWindow s t)
  | _, _ => true

/-- Whether a READY's skip stands within tolerance of its point's stop (R83). A CONFLICT point is no destination
(R55). -/
def skipAtPoint (s : State) (c : Call) : Bool :=
  statusOf (peerOf s c.origin) != .conflict
    && (convOf s c.comp).any fun v => (stopDepth s v c.origin).any (within s v)

/-- The READY entries of one kind of point whose skip stands at it, oldest first. -/
def readiesOf (s : State) (k : PointKind) : List Call :=
  (liveCalls s).filter fun c => c.kind == .ready && (peerOf s c.origin).role == .point k && skipAtPoint s c

/-- The stop depth to which a READY's skip is sent: that of the other READY's point in its compartment (R83). -/
def boundFor (s : State) (c d : Call) : Option Int := (convOf s c.comp).bind fun v => stopDepth s v d.origin

/-- Whether two READY calls may make a pair: their compartments differ, and each skip's point to go to has a learned
entry for it. R83 is silent on a point without one; R67 says that it cannot be a destination (DEDUCED, log 30). -/
def pairsWith (s : State) (l t : Call) : Bool :=
  t.comp != l.comp && (boundFor s l t).isSome && (boundFor s t l).isSome

/-- The candidate pair of a rock winder: the oldest READY of a loader and of a tipper that may make one (R83). -/
def readyPair (s : State) : Option (Call × Call) :=
  (readiesOf s .loader).findSome? fun l => ((readiesOf s .tipper).find? (pairsWith s l)).map fun t => (l, t)

/-! ## Parking, claims, releases (R79, R86, R87, R88) -/

/-- The cage becoming parked at a level: its FETCH and RELEVEL entries are complete, those dropping apart (R79). -/
def completeAt (level : Nat) (s : State) : State :=
  { s with
    w.seq.list := s.w.seq.list.filter fun c =>
      !((c.kind == .fetch || c.kind == .relevel) && c.level == level && c.mark.isNone) }

/-- The parked level of a sample, acting where the cage becomes parked (R69, R79). -/
def park (s : State) : State :=
  let now := parkedAt s
  let s1 := { s with w.seq.parked := now }
  match now with
  | some q => if parkedLevel s = some q.1 then s1 else completeAt q.1 s1
  | none => s1

/-- Whether a claim of a landing that shows a level is taken: the parked level is that level, with the landing as its
qualifying one (R86). -/
def claimHolds (s : State) (n level : Nat) : Bool :=
  s.w.seq.wind == .idle && s.w.tr.validated && s.w.seq.custodian.isNone
    && s.w.seq.parked == some (level, n)

/-- The last custodian after a landing has been named custodian (R86). -/
def lastAfterClaim (s : State) (n : Nat) : Option Nat := if s.w.seq.last = some n then none else s.w.seq.last

/-- A landing named custodian (R86, R133). -/
def nameCustodian (n : Nat) (s : State) : State := changePair (some n) (lastAfterClaim s n) s

/-- A STATE showing a level and CLAIM (R86). -/
def takeClaim (n level : Nat) (s : State) : State := if claimHolds s n level then nameCustodian n s else s

/-- A STATE from the custodian showing RELEASE with gates CLOSED_LOCKED (R87). -/
def takeRelease (n : Nat) (locked : Bool) (s : State) : State :=
  if s.w.seq.custodian = some n ∧ locked = true then
    changePair none (some n) { s with w.seq.releaseHold := some Config.releaseHold }
  else s

/-- A landing's custody field for the cage's compartment (R86, R87). -/
def takeCustodyField (n : Nat) (r : LandingReport) (s : State) : State :=
  match landingComp r (cageComp s) with
  | none => s
  | some c =>
    match c.custody with
    | .claim => takeClaim n r.level s
    | .release => takeRelease n (r.gate == .closedLocked) s
    | .none => s
    | .held => s

/-- Whether the custodian's landing still has the cage parked at it (R88). -/
def custodianStands (s : State) : Bool := s.w.seq.custodian.all fun n => s.w.seq.parked.any fun q => q.2 == n

/-- Whether the cage stands within tolerance of the last custodian's stop (R88). -/
def lastStands (s : State) : Bool := s.w.seq.last.all fun n => (stopDepth s .a n).any (within s .a)

/-- The ends of custody at a position sample (R88). -/
def endCustody (s : State) : State :=
  let custodian := if s.w.seq.wind = .idle ∧ custodianStands s = false then none else s.w.seq.custodian
  let last := if custodian = s.w.seq.custodian ∧ lastStands s then s.w.seq.last else none
  changePair custodian last s

/-- The restoration tested at the first sample in IDLE (R133). -/
def restoreCustody (s : State) : State :=
  if s.w.seq.wind = .idle then
    match s.w.seq.restoration with
    | none => s
    | some (n, l) =>
      let s1 := { s with w.seq.restoration := none }
      if s.w.seq.parked = some (l, n) ∧ s.w.seq.custodian = none then nameCustodian n s1 else s1
  else s

/-! ## READY withdrawal (R84) -/

/-- Whether a STATE shows READY for a compartment; a landing's shows none (R165). -/
def showsReady (r : StateReport) (comp : Nat) : Bool :=
  match r with
  | .landing _ => false
  | .skip k => (skipComp k comp).any (·.ready)

/-- Whether a STATE withdraws a READY entry of its origin, whatever role the origin now shows (R84). -/
def withdraws (n : Nat) (r : StateReport) (c : Call) : Bool :=
  c.kind == .ready && c.origin == n && showsHold r && !showsReady r c.comp

/-- READY entries withdrawn by a STATE (R84). -/
def withdrawReady (n : Nat) (r : StateReport) (s : State) : State := dropWhere (withdraws n r) s

end Sys2Proof.Machine
end

