-- ==== Sys2Proof/Machine/Drive.lean ====
section
/-! DEFINITION. The drive port: the panel status pattern and the telegram (R48, R135, R206). -/

namespace Sys2Proof.Machine

open Sys2Proof

/-- The refusal byte of a resume reason (R206). -/
def resumeReasonCode : ResumeReason → Nat
  | .selector => 1
  | .count => 2
  | .fault => 3
  | .cause => 4
  | .conditions => 5
  | .noTarget => 6

/-- Telegram byte 4: the refusal indication. -/
def refusalByte : RefusalShown → Nat
  | .none => 0
  | .survey => 16
  | .resume r => 32 + resumeReasonCode r
  | .cancel => 48

/-- Telegram byte 5: the record's kind, phase at capture and resume count. R124 gives a count to MOVING records alone and
R206 no value of it for a PARKED one, whose b1 and b0 are 0 (DESIGN CHOICE, log 75); with phase codes of three bits and a
count of at most 3, every record's b2 is 0 (DESIGN CHOICE, log 76). -/
def recordByte : Option Record → Nat
  | none => 0
  | some r =>
    match r.kind with
    | .moving m => 64 + phaseCode r.phase * 8 + m.count
    | .parked _ => 128 + 6 * 8

/-- Telegram byte 6: the record's cause. -/
def causeByte : Option Record → Nat
  | none => 0
  | some r =>
    match r.cause with
    | .fault k => k.code
    | .driveLost => 13
    | .selector => 14
    | .node n => 64 + n

/-- The code of a trip cause. -/
def tripCauseCode : TripCause → Nat
  | .fault k => k.code
  | .powerUp => 12

/-- Telegram byte 7: the trip cause while TRIP is asserted, 255 while released (R206). A telegram sent within the event at
which TRIP asserts, as by a survey that fails at that sample, carries the cause that TRIP takes by it (R118). -/
def tripByte (s : State) : Nat := if tripLevel s then tripCauseCode (tripCauseAfter s) else 255

/-- Telegram bytes 8 to 10: the captured X_A as the nearest value of its field, 0 with no record (R204). -/
def capturedBytes : Option Record → List Nat
  | none => [0, 0, 0]
  | some r => fieldBytes 3 (depthField (r.x.a.map sendDepth))

/-- Bytes 0 to 10 of the telegram. R206 names no content for byte 3 b7 to b2 and for byte 5 b2 (`recordByte`): each is
sent as 0 (DESIGN CHOICE, log 76). -/
def telegramBody (s : State) : List Nat :=
  [s.w.drive.counter.toNat] ++ fieldBytes 2 s.w.env.refSpeed
    ++ [ dirCode s.w.env.refDir, refusalByte s.w.panel.refusal, recordByte s.w.seq.record
       , causeByte s.w.seq.record, tripByte s ]
    ++ capturedBytes s.w.seq.record

/-- The telegram's twelve bytes: byte 11 is the total of the others modulo 256 (R206). -/
def telegramBytes (s : State) : List Byte :=
  (telegramBody s ++ [(telegramBody s).sum % 256]).map (BitVec.ofNat 8)

/-- A telegram sent with the latest values, the counter advancing (R206). -/
def sendTelegram (s : State) : State :=
  { s with w.drive.telegram := telegramBytes s, w.drive.counter := s.w.drive.counter + 1 }

end Sys2Proof.Machine
end

