-- ==== Sys2Proof/Machine/Report.lean ====
section
/-! DEFINITION. The winder's report: its content (R111, R177, R204), and its queuing with the MOTION interval
(R110). -/

namespace Sys2Proof.Machine

open Sys2Proof

/-- The motion page of a report (R177, R204), with the classes of the latest sample beside its X (R2, R16). -/
def motionView (s : State) (number : Nat) : MotionPage :=
  { wind := s.w.seq.wind, number := number
    x := s.w.tr.x.both fun x => x.map sendDepth
    v := s.w.tr.v.both sendSpeed
    dir := s.w.tr.dir, known := s.w.tr.x.a.isSome, validated := s.w.tr.validated, cls := s.w.tr.clsSample }

/-- The call that a report shows in service: on a rock winder the loader's READY, which stands first (R204). -/
def shownCall (s : State) : Option Call := s.w.seq.slot.head?

/-- The target level of the call in service: a resumed leg's resume target, else the served level; 0 on a rock
winder (R111, R204), and without a call in service (DESIGN CHOICE, log 74). -/
def shownTarget (s : State) : Nat :=
  match shownCall s, s.w.seq.record with
  | none, _ => 0
  | some c, some r =>
    match r.kind with
    | .moving { target := .level l, inProgress := true, .. } => l
    | _ => servedLevel c
  | some c, none => servedLevel c

/-- The resume count that a report shows (R111); 0 without a MOVING record (DESIGN CHOICE, log 74). -/
def shownCount (s : State) : Nat :=
  match s.w.seq.record with
  | some { kind := .moving m, .. } => m.count
  | _ => 0

/-- The status page of a report (R177, R204), with the reference as the latest sample set it (R111). R204 gives no value to
the failing conveyance without a failing point, to the resume count without a MOVING record, and to the target level
without a call in service; each is 0 (DESIGN CHOICE, log 74). -/
def statusView (s : State) (number : Nat) : StatusPage :=
  { phase := s.w.env.phase, wind := s.w.seq.wind, number := number, kind := (wcfg s).kind
    first := (wcfg s).comps.a, second := (wcfg s).comps.b, outcome := s.w.seq.survey.outcome
    call := (shownCall s).map (·.kind), lockout := s.w.seq.lockout, record := s.w.seq.record.isSome
    count := shownCount s, failConv := (s.w.seq.survey.failing.map (·.2)).getD .a
    ceiling := min 32767 s.w.env.ceiling, refSpeed := min 32767 s.w.env.shownSpeed, refDir := s.w.env.shownDir
    parked := parkedLevel s, custodian := s.w.seq.custodian.getD 0, last := s.w.seq.last.getD 0
    origin := ((shownCall s).map (·.origin)).getD 0
    failNode := (s.w.seq.survey.failing.map (·.1)).getD 0
    seq := ((shownCall s).map (·.seq)).getD 0, target := shownTarget s, mask := faultMask s }

/-- A report filled with the view as it stands (R111, R177). -/
def reportView (s : State) : Report :=
  { motion := motionView s s.line.reportCounter, status := statusView s s.line.reportCounter }

/-- The MOTION interval's length, chosen as a frame is queued (R110). -/
def motionInterval (s : State) : Nat := if governs s then Config.motionMoving else Config.motionResting

/-- A report queued: it takes the counter's value, which then advances, and the interval timer restarts
(R110, R177, R183). -/
def queueReport (s : State) : State :=
  putReport (reportView s)
    { s with
      line.reportCounter := (s.line.reportCounter + 1) % 256
      w.seq.motionTimer := some (motionInterval s) }

end Sys2Proof.Machine
end

