-- ==== Sys2Proof/Machine/Sequencer.lean ====
section
/-! DEFINITION. The wind sequencer's transitions (chapters 3, 5 and 6): entering and leaving the wind states, the
start conditions, the suspended-wind record, starting and ending a leg or a survey, and inspection running. -/

namespace Sys2Proof.Machine

open Sys2Proof

/-! ## Wind states -/

/-- Whether a leg exists in a wind state (R91). -/
def keepsLeg : WindState → Bool
  | .preparing => true
  | .running => true
  | .stopping => true
  | _ => false

/-- Whether marker expectations, the acceleration start, and the RESUMED cap and an event-like SLOW cap of a leg are kept
on entry to a state: RUNNING and STOPPING follow within the governing states (R21, R32, R35). -/
def keepsMotion : WindState → Bool
  | .running => true
  | .stopping => true
  | _ => false

/-- The MODE cap of a wind state (R35, R36). -/
def modeCap (s : State) : WindState → Option Cap
  | .inspection => some (flatCap s (wcfg s).inspection)
  | .survey => some (flatCap s (wcfg s).survey)
  | _ => none

/-- The envelope unit at a change of the wind state. A SLOW cap that a lasting kind has raised in a governing state stays,
whatever the state (R35). -/
def envAfter (s : State) (w : WindState) : Envelope :=
  { s.w.env with
    completion := false
    halt := none
    acc := if keepsMotion w then s.w.env.acc else none
    capMode := modeCap s w
    capResumed := if keepsMotion w then s.w.env.capResumed else none
    capSlow := if keepsMotion w then s.w.env.capSlow else lastingCap s.w.env.capSlow
    runDown := if isLegState w then none else s.w.env.runDown }

/-- The sequencer at a change of the wind state: its timers stop, and what belongs to a leg goes with it (R91). -/
def seqAfter (s : State) (w : WindState) : Sequencer :=
  { s.w.seq with
    wind := w
    leg := if keepsLeg w then s.w.seq.leg else none
    startTimer := none
    completionWait := none
    haltZero := none
    stopCause := if w = .stopping then s.w.seq.stopCause else none
    parked := if w = .idle then s.w.seq.parked else none }

/-- A change of the wind state. -/
def setWind (w : WindState) (s : State) : State :=
  { s with
    w.seq := seqAfter s w
    w.env := envAfter s w
    w.tr.expect := if keepsMotion w then s.w.tr.expect else ⟨none, none⟩ }

/-- The reference at 0 and NONE at once (R46); the one that MOTION carries stays the latest sample's (R111). -/
def zeroReference (s : State) : State := { s with w.env.refSpeed := 0, w.env.refDir := .none }

/-- PERMIT withdrawn, if it is held: the reference is 0 at once and a telegram is sent (R46, R109, R206). In
INSPECTION the envelope then no longer governs (R28), so that a SLOW cap that an event-like kind has raised or kept goes
(R35). -/
def withdrawPermit (s : State) : State :=
  if s.w.seq.permit then
    let s1 := zeroReference { s with w.seq.permit := false }
    sendTelegram (if s.w.seq.wind = .inspection then { s1 with w.env.capSlow := lastingCap s1.w.env.capSlow } else s1)
  else zeroReference s

/-- A rest state entered, PERMIT withdrawn (R93, R119, R128). -/
def restIn (w : WindState) (s : State) : State := withdrawPermit (setWind w s)

/-! ## Start conditions (R94) -/

/-- Whether a member's latest STATE shows its enclosure closed. -/
def showsClosed (p : Peer) : Bool := (stateOf p).any enclosureClosed

/-- Whether a member's latest STATE shows STOP_HOLD. -/
def showsStop (p : Peer) : Bool := (stateOf p).any showsHold

/-- Condition 6: every member's enclosure closed in its latest STATE. -/
def enclosuresClosed (s : State) : Bool := (members s).all showsClosed

/-- Condition 7: no member reports STOP_HOLD, and no ALARM stands. -/
def noHolds (s : State) : Bool := !(members s).any showsStop && s.w.flt.alarmSet.isEmpty

/-- Condition 3: no kind under STOP is ACTIVE. -/
def noStopActive (s : State) : Bool := (firstUnder s .stop).isNone

/-- Conditions 2 to 7, those that hold a start in PREPARING as well (R98). -/
def conditionsTwoToSeven (s : State) : Bool :=
  !anyHeld s && noStopActive s && s.w.tr.validated && s.w.panel.selector == .normal && enclosuresClosed s && noHolds s

/-- Conditions 1 to 7 (R94, R129). -/
def commonConditions (s : State) : Bool := !tripLevel s && conditionsTwoToSeven s

/-- Conditions 8 and 9 for a service winder's candidate. -/
def serviceConditions (s : State) (c : Call) : Bool := s.w.seq.custodian.isNone && !servedAway s c

/-- Condition 9 for a pair: neither point SILENT. -/
def pairAwake (s : State) (l t : Nat) : Bool :=
  statusOf (peerOf s l) != .silent && statusOf (peerOf s t) != .silent

/-! ## The suspended-wind record (R124 to R127) -/

/-- The skip points that a pair's skips are bound for: the skip at the loader for the tipper, and the other for
the loader (R83, R125). -/
def pairPoints (s : State) (l t : Call) : Pair Nat :=
  if convOf s l.comp = some .b then ⟨l.origin, t.origin⟩ else ⟨t.origin, l.origin⟩

/-- The resume target of a new record (R125). -/
def targetOfCalls (s : State) (calls : List Call) : ResumeTarget :=
  match calls with
  | [l, t] => .points (pairPoints s l t)
  | c :: _ => .level (servedLevel c)
  | [] => .level 0

/-- The phase at capture of a trip (R125): STOPPING in STOPPING, CREEP before the first sample in PREPARING. -/
def tripPhase (s : State) : Phase :=
  if s.w.seq.wind = .stopping then .stopping
  else if s.w.seq.wind = .preparing ∧ s.w.env.acc = none then .creep
  else s.w.env.phase

/-- What a capture writes of a MOVING record beside the fields of every record (R125, R127). -/
def movingAtCapture (s : State) (g : Leg) : MovingRecord :=
  match g.kind, s.w.seq.record with
  | .resume, some { kind := .moving m, .. } => { m with dir := g.dir, inProgress := false }
  | _, _ =>
    { calls := s.w.seq.slot, dir := g.dir, target := targetOfCalls s s.w.seq.slot, count := 0, inProgress := false }

/-- An interrupted leg captured: a new record, or the same one re-captured; the slot empties (R125, R127). -/
def captureLeg (cause : Cause) (phase : Phase) (s : State) : State :=
  match s.w.seq.leg with
  | none => s
  | some g =>
    { s with
      w.seq.record :=
        some { cause := cause, phase := phase, x := s.w.tr.x, v := s.w.tr.v, kind := .moving (movingAtCapture s g) }
      w.seq.slot := [] }

/-- The cause that a trip writes (R125). -/
def tripCauseOf (s : State) : Cause :=
  match s.w.flt.tripCause with
  | .fault k => .fault k
  | .powerUp => .fault .encoder

/-- A trip in IDLE with a custodian named: a PARKED record takes it (R89, R125). -/
def captureParked (s : State) : State :=
  match s.w.seq.custodian with
  | none => s
  | some n =>
    changePair none s.w.seq.last
      { s with
        w.seq.record :=
          some
            { cause := tripCauseOf s, phase := .none, x := s.w.tr.x, v := s.w.tr.v
              kind := .parked { level := (parkedLevel s).getD 0, custodian := n } } }

/-- Whether the record's cause is gone (R126). -/
def causeGone (s : State) : Cause → Bool
  | .fault k => faultState s k == .clear
  | .node n => (stateOf (peerOf s n)).any fun r => !showsHold r && enclosureClosed r
  | .driveLost => !isOn s.w.panel.driveRunning
  | .selector => s.w.panel.selector == .normal

/-! ## Survey failure (R64, R65) -/

/-- The survey state once the outcome leaves IN_PROGRESS (R56, R65). -/
def closeSurvey (o : SurveyOutcome) (f : Option (Nat × Conv)) (v : Survey) : Survey :=
  { v with outcome := o, failing := f, lists := ⟨[], []⟩, pointer := ⟨0, 0⟩ }

/-- Whether a survey is in progress (R56). -/
def surveying (s : State) : Bool := s.w.seq.wind == .survey && s.w.seq.survey.outcome == .inProgress

/-- What every survey failure writes: the outcome, the failing point, an empty table, and the flag at no (R65). -/
def markSurveyFailed (o : SurveyOutcome) (f : Option (Nat × Conv)) (s : State) : State :=
  emptyLearned { s with w.seq.survey := closeSurvey o f s.w.seq.survey, w.tr.validated := false }

/-- A survey failure with TRIP released: STOPPING while drive RUNNING is active, otherwise IDLE (R65). -/
def failSurvey (o : SurveyOutcome) (f : Option (Nat × Conv)) (s : State) : State :=
  if surveying s then
    let s1 := markSurveyFailed o f s
    if isOn s.w.panel.driveRunning then setWind .stopping s1 else restIn .idle s1
  else s

/-! ## TRIPPED (R119) -/

/-- What a trip does to the call, the custody and the record, by the state left (R119). -/
def tripCapture (s : State) : State :=
  match s.w.seq.wind with
  | .idle => captureParked s
  | .preparing => captureLeg (tripCauseOf s) (tripPhase s) s
  | .running => captureLeg (tripCauseOf s) (tripPhase s) s
  | .stopping => captureLeg (tripCauseOf s) (tripPhase s) s
  | .survey =>
    if s.w.seq.survey.outcome = .inProgress then markSurveyFailed .aborted none s else s
  | _ => s

/-- TRIPPED entered (R119). -/
def enterTripped (s : State) : State := restIn .tripped (tripCapture s)

/-- Whether TRIP leads to TRIPPED from a wind state (R117, R119). -/
def tripsFrom : WindState → Bool
  | .starting => false
  | .tripped => false
  | .faulted => false
  | _ => true

/-- The TRIP output brought up to date, TRIPPED being entered where it is asserted (R118, R119). -/
def applyTrip (s : State) : State :=
  let s1 := { s with w.flt.trip := tripLevel s, w.flt.tripCause := tripCauseAfter s }
  if tripLevel s && tripsFrom s.w.seq.wind then enterTripped s1 else s1

/-! ## Starting a leg (R95 to R98) -/

/-- The pair of directions' shorthand: A's direction from its latched target and X_A (R96). -/
def directionTo (t x : Int) : Dir := if x < t then .down else .up

/-- The cage's class at the start of a leg (R15). -/
def classAtStart (c : Call) (old : LoadClass) : LoadClass :=
  match c.kind with
  | .dispatch => c.cls.getD old
  | .fetch => .empty
  | .relevel => .empty
  | .ready => old

/-- PREPARING entered with a leg and the calls of its slot: PERMIT is raised and the start timer starts (R95). -/
def prepare (g : Leg) (calls : List Call) (s : State) : State :=
  let s1 := setWind .preparing s
  { s1 with
    w.seq.leg := some g
    w.seq.slot := calls
    w.seq.permit := true
    w.seq.startTimer := some (startWindow s) }

/-- A service winder's candidate begins its leg (R95, R96). -/
def startCall (c : Call) (t x : Int) (s : State) : State :=
  let s1 := changePair none none (removeEntry c s)
  let s2 := purgeDispatch { s1 with w.tr.cls.a := classAtStart c s1.w.tr.cls.a }
  prepare { kind := .call, dir := directionTo t x, target := ⟨some t, none⟩, need := none } [c] s2

/-- The latched targets of a pair: for each skip its point's stop depth (R83); `pairsWith` lets no pair start without
both. -/
def pairTargets (s : State) (p : Pair Nat) : Pair (Option Int) := each fun c => stopDepth s c (p.get c)

/-- A rock winder's pair begins its leg (R83, R95). -/
def startPair (l t : Call) (s : State) : State :=
  let points := pairPoints s l t
  let dir := if convOf s l.comp = some .a then Dir.up else Dir.down
  prepare { kind := .pair, dir := dir, target := pairTargets s points, need := none } [l, t]
    (removeEntry t (removeEntry l s))

/-- The slot's calls returned to the head of the list (R81). -/
def returnCalls (s : State) : State := { s with w.seq.list := s.w.seq.slot ++ s.w.seq.list, w.seq.slot := [] }

/-- Whether the leg was begun by a resume. -/
def isResume (s : State) : Bool := inResumedLeg s

/-- A start that fails in PREPARING: the calls return and the state is IDLE, or a resumed leg's record is
re-captured and the state is SUSPENDED (R97, R98). -/
def failStart (cause : Cause) (s : State) : State :=
  if isResume s then restIn .suspended (captureLeg cause (tripPhase s) s) else restIn .idle (returnCalls s)

/-- START_FAIL in PREPARING (R97): raised whatever its reaction, with the start lockout for a CALL or PAIR leg
(R99). -/
def startFail (s : State) : State :=
  let s1 := raiseEvent .startFail s
  failStart (.fault .startFail) (if isResume s then s1 else { s1 with w.seq.lockout := true })

/-- START_FAIL in SURVEY: the survey fails ABORTED (R61). -/
def surveyStartFail (s : State) : State := failSurvey .aborted none (raiseEvent .startFail s)

/-! ## Ends of a leg (R101, R102, R104) -/

/-- A leg that ends complete: the slot empties, a resumed leg's record is discarded, IDLE (R101, R132). -/
def endLeg (s : State) : State :=
  restIn .idle
    { s with w.seq.slot := [], w.seq.record := if isResume s then none else s.w.seq.record }

/-- Drive RUNNING lost in RUNNING before completion (R102). -/
def loseDrive (s : State) : State := restIn .suspended (captureLeg .driveLost s.w.env.phase s)

/-- Standstill in STOPPING: SUSPENDED with the cause kept at entry, or IDLE after a survey failure (R65, R104). -/
def standStill (s : State) : State :=
  if s.w.seq.leg.isSome then
    restIn .suspended (captureLeg (s.w.seq.stopCause.getD .driveLost) .stopping s)
  else restIn .idle s

/-- STOPPING entered from RUNNING with its cause (R103). -/
def enterStopping (cause : Cause) (s : State) : State := setWind .stopping { s with w.seq.stopCause := some cause }

/-- RUNNING entered: the start timer stops and the marker expectations are set (R97). -/
def enterRunning (s : State) : State := setExpectations (setWind .running s)

/-- The point at a pointer of an expectation list; none once it is exhausted (R56). -/
def pointerPoint (v : Survey) (c : Conv) : Option SurveyPoint := (v.lists.get c)[v.pointer.get c]?

/-- The point that a pointer still stands at (R66). With both pointers short of their ends it is A's (DESIGN CHOICE,
log 62). -/
def unreached (v : Survey) : Option (Nat × Conv) :=
  match pointerPoint v .a, pointerPoint v .b with
  | some p, _ => some (p.node, .a)
  | none, some p => some (p.node, .b)
  | none, none => none

/-- A survey's end after its completion flag: complete with every pointer exhausted, otherwise MISSING (R66). -/
def endSurvey (s : State) : State :=
  match unreached s.w.seq.survey with
  | some f => failSurvey .missing (some f) s
  | none =>
    restIn .idle
      { s with w.seq.survey := closeSurvey .complete none s.w.seq.survey, w.tr.validated := true }

/-! ## Inspection running (R106 to R108) -/

/-- INSPECTION entered from IDLE or SUSPENDED (R106). -/
def enterInspection (s : State) : State :=
  let s1 := restIn .inspection (changePair none none s)
  { s1 with w.seq.lockout := false, w.panel.heldDir := .none }

/-- INSPECTION left at standstill (R106). -/
def leaveInspection (s : State) : State :=
  restIn (if s.w.seq.record.isSome then .suspended else .idle) s

/-- Whether a conveyance's overwind memory forbids its moving in a direction (R108). -/
def memoryForbids (m : OverwindMemory) (d : Dir) : Bool :=
  match m, d with
  | .upper, .up => true
  | .lower, .down => true
  | _, _ => false

/-- Whether the overwind memories permit A's direction (R107, R108). -/
def memoryPermits (s : State) (d : Dir) : Bool :=
  !memoryForbids s.w.seq.overwind.a d && !memoryForbids s.w.seq.overwind.b d.opposite

/-- The conditions of R107 apart from the overwind memory. -/
def inspectionFit (s : State) : Bool :=
  !tripLevel s && noStopActive s && enclosuresClosed s && noHolds s

/-- A's direction by the UP and DOWN inputs (R28). -/
def heldInput (s : State) : Dir := envDir.inputDirOf s

/-- Whether PERMIT may stay in INSPECTION (R107). -/
def inspectionStands (s : State) : Bool :=
  inspectionFit s && s.w.panel.selector == .inspection && memoryPermits s (heldInput s)
    && (isOn s.w.panel.up || isOn s.w.panel.down || isOn s.w.panel.driveRunning)

/-- PERMIT raised in INSPECTION for a direction (R107). The envelope then governs; a SLOW cap raised before
that outside the governing states has lapsed (R117). -/
def raiseInspection (d : Dir) (s : State) : State :=
  { s with
    w.seq.permit := true, w.panel.heldDir := d, w.env.runDown := none
    w.env.capSlow := lastingCap s.w.env.capSlow }

/-- Whether the held direction reverses the last one while the drive runs (R107, log 22). -/
def reverses (s : State) : Bool :=
  heldInput s != .none && s.w.panel.heldDir != .none && heldInput s != s.w.panel.heldDir
    && isOn s.w.panel.driveRunning

/-- A change of UP or DOWN in INSPECTION, of which `rising` says that one has become active (R107). -/
def inspectDirection (rising : Bool) (s : State) : State :=
  if s.w.seq.permit then
    if reverses s then withdrawPermit s
    else if heldInput s = .none then s
    else { s with w.panel.heldDir := heldInput s }
  else if rising && heldInput s != .none && inspectionFit s && s.w.panel.selector == .inspection
      && memoryPermits s (heldInput s) then
    raiseInspection (heldInput s) s
  else s

end Sys2Proof.Machine
end

