-- ==== Sys2Proof/Machine/SurveyRun.lean ====
section
/-! DEFINITION. The survey (chapter 3): its request and fixed points, its start, its passes, and what it tests at a
position sample. -/

namespace Sys2Proof.Machine

open Sys2Proof

/-! ## Fixed points (R58) -/

/-- A peer's announced depths in a compartment, if it has a marker fitted there and is not CONFLICT. -/
def surveyCandidate (comp : Nat) (p : Peer) : Option (Geometry × SurveyPoint) :=
  (geometryOf p comp).bind fun g =>
    if g.fitted && statusOf p != .conflict then
      some (g, { node := p.node, stop := g.stop, down := g.down, up := g.up })
    else none

/-- The points of a compartment that the survey may use, in node order. -/
def surveyPoints (s : State) (c : Conv) : List (Geometry × SurveyPoint) :=
  s.peers.filterMap (surveyCandidate (compOf s c))

/-- The first point of a kind in a conveyance's compartment. -/
def pointOfKind (s : State) (c : Conv) (k : PointKind) : Option SurveyPoint :=
  ((surveyPoints s c).find? fun q => q.1.point == k).map (·.2)

/-- Whether a geometry record is of a landing with a cage stop. -/
def isCageStop (g : Geometry) : Bool :=
  g.hasLanding &&
    match g.point with
    | .landing _ => true
    | _ => false

/-- The deepest landing with a cage stop in A's compartment (R58); of equal stops, the lowest node (DESIGN CHOICE,
log 65). -/
def deepestLanding (s : State) : Option SurveyPoint :=
  (leastBy (fun q => (4000000 - q.2.stop).toNat) ((surveyPoints s .a).filter fun q => isCageStop q.1)).map (·.2)

/-- The start points: on a service winder A's alone (R58). -/
def startPoints (s : State) : Pair (Option SurveyPoint) :=
  if isRock s then ⟨pointOfKind s .a .tipper, pointOfKind s .b .loader⟩
  else ⟨pointOfKind s .a (.landing 0), none⟩

/-- The bottom point (R58). -/
def bottomPoint (s : State) : Option SurveyPoint :=
  if isRock s then pointOfKind s .a .loader else deepestLanding s

/-- The end of B on a rock winder (R58). -/
def topPoint (s : State) : Option SurveyPoint := if isRock s then pointOfKind s .b .tipper else none

/-- Whether a start point reports target present for its compartment (R58). -/
def startsPresent (s : State) (c : Conv) (p : SurveyPoint) : Bool :=
  (stateOf (peerOf s p.node)).any fun r => showsPresent r (compOf s c)

/-- Whether the points of R58's table exist and meet their conditions. -/
def fixedPointsHold (s : State) : Bool :=
  match (startPoints s).a, bottomPoint s with
  | some a, some z =>
    startsPresent s .a a && z.down ≤ z.stop && a.down < z.down
      && (!isRock s || ((startPoints s).b.any (startsPresent s .b) && (topPoint s).isSome))
  | _, _ => false

/-- The conditions of a survey request (R57). -/
def surveyConditions (s : State) : Bool :=
  s.w.seq.wind == .idle && s.w.seq.record.isNone && s.w.seq.custodian.isNone && !tripLevel s && !anyHeld s
    && !strongActive s && enclosuresClosed s && noHolds s && fixedPointsHold s

/-! ## Survey start (R59, R60) -/

/-- A's expectation list, ending at the bottom point (R60). R60 both orders equal depths by node number and makes the
bottom point the last entry; where a point announces the bottom point's own depth, the bottom point is last whatever its
number (DESIGN CHOICE, log 72). -/
def listOfA (s : State) (a z : SurveyPoint) : List SurveyPoint :=
  let between := (surveyPoints s .a).map (·.2) |>.filter fun p =>
    a.down < p.down && p.down ≤ z.down && p.node != z.node && p.node != a.node
  sortBy (fun p => p.down) between ++ [z]

/-- B's expectation list on a rock winder, ending at the tipper (R60). Where the tipper's announced UP is not shallower
than the loader's, no point meets R60's bounds, and the list is the tipper alone (DESIGN CHOICE, log 56). Where a point
announces the tipper's own UP depth, the tipper is last whatever its number (DESIGN CHOICE, log 72). -/
def listOfB (s : State) (b t : SurveyPoint) : List SurveyPoint :=
  let between := (surveyPoints s .b).map (·.2) |>.filter fun p =>
    p.up < b.up && t.up ≤ p.up && p.node != t.node && p.node != b.node
  sortBy (fun p => -p.up) between ++ [t]

/-- The expectation lists (R60). -/
def surveyLists (s : State) : Pair (List SurveyPoint) :=
  ⟨match (startPoints s).a, bottomPoint s with
    | some a, some z => listOfA s a z
    | _, _ => [],
   match (startPoints s).b, topPoint s with
    | some b, some t => listOfB s b t
    | _, _ => []⟩

/-- The load classes at survey start (R15). -/
def surveyClasses (s : State) : Pair LoadClass :=
  if isRock s then ⟨.empty, .empty⟩ else { s.w.tr.cls with a := .empty }

/-- Step 2 of the survey start, on the tracker (R59). -/
def clearForSurvey (s : State) : State :=
  { s with
    w.tr.origin := some { n0 := s.w.tr.nSample, q := ⟨0, 0⟩ }
    w.tr.k := ⟨0, 0⟩
    w.tr.cls := surveyClasses s
    w.tr.history := []
    w.tr.learned := ⟨[], []⟩
    w.tr.validated := false
    w.tr.expect := ⟨none, none⟩ }

/-- The start position of a referenced conveyance, with the new class and K = 0 (R59). -/
def startPosition (s : State) (c : Conv) : Int :=
  let p := paidLength s c (conveyance s c).r
  (conveyance s c).z + p + stretchOf s c (s.w.tr.cls.get c) p

/-- The residual of a referenced conveyance (R59); 0 for one without a start point. -/
def residual (s : State) (starts : Pair (Option SurveyPoint)) (c : Conv) : Int :=
  match starts.get c with
  | some p => p.stop - startPosition s c
  | none => 0

/-- A start point's learned entry, valued at the announced figures (R59, R67). -/
def learnStart (starts : Pair (Option SurveyPoint)) (c : Conv) (s : State) : State :=
  match starts.get c with
  | some p => learn c { node := p.node, down := p.down, up := p.up, stop := p.stop } s
  | none => s

/-- SURVEY entered: last custody ends, PERMIT is raised and the start window begins (R61, R88, R109). -/
def enterSurvey (v : Survey) (s : State) : State :=
  let s1 := setWind .survey (changePair none none s)
  { s1 with w.seq.survey := v, w.seq.permit := true, w.seq.startTimer := some (startWindow s) }

/-- A survey start whose residuals lie within the window (R59). -/
def beginSurvey (starts : Pair (Option SurveyPoint)) (r : Pair Int) (lists : Pair (List SurveyPoint))
    (bottom : Option SurveyPoint) (s : State) : State :=
  let s1 := { s with w.tr.origin := some { n0 := s.w.tr.nSample, q := r } }
  enterSurvey
    { outcome := .inProgress, failing := none, start := starts, bottom := bottom, lists := lists, pointer := ⟨0, 0⟩ }
    (learnStart starts .b (learnStart starts .a s1))

/-- A survey start refused with REF_MISMATCH: the state stays IDLE (R59). R56 and R59 do not say what the start points
and the bottom point then hold; those of the former survey stay (DESIGN CHOICE, log 49). -/
def refuseSurvey (s : State) : State :=
  { s with w.seq.survey := closeSurvey .refMismatch none s.w.seq.survey }

/-- The survey start (R59): the list is dropped (R78), the tracker cleared, the residuals formed. -/
def startSurvey (s : State) : State :=
  let starts := startPoints s
  let lists := surveyLists s
  let bottom := bottomPoint s
  let s1 := clearForSurvey (dropWhere (fun _ => true) s)
  let r := each (residual s1 starts)
  if r.a.natAbs ≤ (wcfg s).surveyStartWindow ∧ r.b.natAbs ≤ (wcfg s).surveyStartWindow then
    beginSurvey starts r lists bottom s1
  else refuseSurvey s1

/-! ## Passes in SURVEY (R62) -/

/-- The survey direction of a conveyance: DOWN for A, UP for B (R62). -/
def surveyDir : Conv → Dir
  | .a => .down
  | .b => .up

/-- A point's announced marker depth for a direction. -/
def announcedFor (p : SurveyPoint) (d : Dir) : Int := if d = .up then p.up else p.down

/-- The located depth of a pass in the survey direction (R62). -/
def locateSurveyPass (s : State) (c : Conv) (age : Nat) : Option Int :=
  (locatePass s c age).bind fun p => if p.2 = surveyDir c then some p.1 else none

/-- An entry recorded at a located pass, the pointer moving on (R62, R67). -/
def recordPass (c : Conv) (p : SurveyPoint) (depth : Int) (s : State) : State :=
  let s1 := learn c (learnedFrom p (surveyDir c) depth) s
  { s1 with w.seq.survey.pointer := s1.w.seq.survey.pointer.set c (s1.w.seq.survey.pointer.get c + 1) }

/-- A pass from the pointer's own point (R62). -/
def pointerPass (c : Conv) (p : SurveyPoint) (age : Nat) (s : State) : State :=
  match locateSurveyPass s c age with
  | none => s
  | some depth =>
    if apart depth (announcedFor p (surveyDir c)) ≤ (wcfg s).surveyWindow then recordPass c p depth s
    else failSurvey .deviation (some (p.node, c)) s

/-- Whether a pass in SURVEY is ignored for its sender: CONFLICT, or the conveyance's start point (R62). -/
def passIgnored (s : State) (n : Nat) (c : Conv) : Bool :=
  statusOf (peerOf s n) == .conflict || (s.w.seq.survey.start.get c).any fun p => p.node == n

/-- A MARKER frame in SURVEY (R62). The counterweight has no list, so its pointer is exhausted. -/
def surveyByMarker (n : Nat) (c : Conv) (age : Nat) (s : State) : State :=
  if passIgnored s n c then s
  else
    match pointerPoint s.w.seq.survey c with
    | none => s
    | some p => if p.node = n then pointerPass c p age s else failSurvey .order (some (n, c)) s

/-! ## At a position sample (R61, R63) -/

/-- Whether a conveyance has passed its pointer's point by more than the survey window (R63). -/
def missedPoint (s : State) (c : Conv) : Option (Nat × Conv) :=
  match pointerPoint s.w.seq.survey c, s.w.tr.x.get c with
  | some p, some x =>
    if (announcedFor p (surveyDir c) + (wcfg s).surveyWindow * (surveyDir c).sign - x) * (surveyDir c).sign < 0 then
      some (p.node, c)
    else none
  | _, _ => none

/-- The test of R63. Where both conveyances have passed their points by that much at one sample, the point named is A's
(DESIGN CHOICE, log 62). -/
def testMissing (s : State) : State :=
  match (missedPoint s .a).or (missedPoint s .b) with
  | some f => if surveying s then failSurvey .missing (some f) s else s
  | none => s

/-- Whether the start handshake of the survey is met: drive RUNNING, and A has moved 100 mm since SURVEY was entered,
counted from N0, which the same event latched (R59, R61). R61 does not say how the 100 mm are measured: the model takes
the gain of paid-out length in the leg's direction, DOWN, as R97 does of a leg (DESIGN CHOICE, log 66). -/
def surveyUnderWay (s : State) : Bool :=
  isOn s.w.panel.driveRunning && s.w.tr.origin.any fun o => Config.startTravel ≤ travelled s o.n0

/-- The survey's part of a position sample. -/
def surveySample (s : State) : State :=
  if s.w.seq.wind = .survey then
    testMissing (if surveyUnderWay s then { s with w.seq.startTimer := none } else s)
  else s

/-! ## What an ANNOUNCE does to a survey (R64) -/

/-- Whether a point is a start point of a conveyance or stands in its list. -/
def inSurvey (v : Survey) (c : Conv) (n : Nat) : Bool :=
  ((v.start.get c).any fun p => p.node == n) || (v.lists.get c).any fun p => p.node == n

/-- Whether a record differs from the former one in a depth. -/
def depthsDiffer (g h : Geometry) : Bool := g.stop != h.stop || g.down != h.down || g.up != h.up

/-- Whether an ANNOUNCE taken changes the survey's ground: a depth or the marker-fitted flag of a point of the
survey, or a marker-fitted point added (R64). -/
def changesSurvey (s : State) (n : Nat) (former : Option Geometry) (g : Geometry) : Bool :=
  match convOf s g.comp with
  | none => false
  | some c =>
    match former with
    | none => g.fitted
    | some h =>
      (inSurvey s.w.seq.survey c n && (depthsDiffer g h || g.fitted != h.fitted)) || (g.fitted && !h.fitted)

/-- Whether a point of the survey has become CONFLICT since an earlier state (R64). 'Such a point' is read as a point of
either list or a start point; another marker-fitted point that becomes CONFLICT aborts nothing (DESIGN CHOICE, log 79). -/
def surveyConflict (before s : State) : Bool :=
  s.peers.any fun p =>
    p.conflict && !(peerOf before p.node).conflict
      && (inSurvey s.w.seq.survey .a p.node || inSurvey s.w.seq.survey .b p.node)

end Sys2Proof.Machine
end

