-- ==== Sys2Proof/Machine/Resume.lean ====
section
/-! DEFINITION. RESUME and CANCEL in SUSPENDED (R129 to R134): the resume target, the conditions, and what an
accepted resume does. -/

namespace Sys2Proof.Machine

open Sys2Proof

/-! ## The resume target (R130) -/

/-- Whether a landing's stop is eligible for NEAREST_AHEAD or NEAREST_BACK, searching in a direction; with its
level, node and depth (R130). -/
def eligibleStop (s : State) (d : Dir) (p : Peer) : Option (Nat × Nat × Int) :=
  match geometryOf p (cageComp s), stopDepth s .a p.node, s.w.tr.x.a with
  | some g, some t, some x =>
    match g.point with
    | .landing l =>
      if g.hasLanding && statusOf p != .conflict && !isAway p && (s.w.tr.cls.a != .men || g.servesMen)
          && (((wcfg s).creepDist + (wcfg s).tol : Nat) : Int) ≤ (t - x) * d.sign then some (l, p.node, t) else none
    | _ => none
  | _, _, _ => none

/-- The eligible stop nearest to X_A; at equal distance, the lower level (R130). -/
def nearestStop (s : State) (d : Dir) : Option (Nat × Nat × Int) :=
  (s.w.tr.x.a).bind fun x =>
    leastBy (fun q => apart q.2.2 x * 32 + q.1) (s.peers.filterMap (eligibleStop s d))

/-- A service winder's target of a level: its landing and its tracker-frame stop depth. A CONFLICT landing is not
chosen (R55, R130). -/
def levelTarget (s : State) (l : Nat) : Option Int :=
  (landingAt s (cageComp s) l).bind fun p => if statusOf p = .conflict then none else stopDepth s .a p.node

/-- The resume target of a MOVING record by the resume selector (R130). -/
def formTarget (s : State) (m : MovingRecord) : ResumePosition → Option ResumeTarget
  | .same =>
    match m.target with
    | .level l => (levelTarget s l).map fun _ => .level l
    | .points p =>
      if (stopDepth s .a p.a).isSome && (stopDepth s .b p.b).isSome && statusOf (peerOf s p.a) != .conflict
          && statusOf (peerOf s p.b) != .conflict then some (.points p) else none
  | .nearestAhead => if isRock s then none else (nearestStop s m.dir).map fun q => .level q.1
  | .nearestBack => if isRock s then none else (nearestStop s m.dir.opposite).map fun q => .level q.1
  | .invalid => none

/-- The latched target depths of a resume target (R130). -/
def targetDepths (s : State) : ResumeTarget → Pair (Option Int)
  | .level l => ⟨levelTarget s l, none⟩
  | .points p => pairTargets s p

/-- The target that the sixth condition of R129 looks at: the formed one, or for SAME the record's own. -/
def inspectedTarget (s : State) (m : MovingRecord) (r : ResumePosition) : Option ResumeTarget :=
  if r = .same then some m.target else formTarget s m r

/-- Whether a target's landing or points are in the way of a resume (R129). -/
def targetAway (s : State) : ResumeTarget → Bool
  | .level l => (landingAt s (cageComp s) l).any isAway
  | .points p => !pairAwake s p.a p.b

/-! ## Conditions (R129) -/

/-- The conditions on a MOVING record alone, after those of every record. -/
def movingRefusal (s : State) (m : MovingRecord) (r : ResumePosition) : Option ResumeReason :=
  if (inspectedTarget s m r).any (targetAway s) then some .conditions
  else if (formTarget s m r).isNone then some .noTarget
  else none

/-- The resume count of a record; a PARKED record has none (R129). -/
def countOf (k : RecordKind) : Nat :=
  match k with
  | .moving m => m.count
  | .parked _ => 0

/-- The refusal reason of a resume request, by the first condition that fails (R129). -/
def resumeRefusal (s : State) (d : Record) (r : ResumePosition) : Option ResumeReason :=
  if s.w.panel.selector ≠ .normal then some .selector
  else if Config.resumeLimit ≤ countOf d.kind then some .count
  else if tripLevel s || anyHeld s then some .fault
  else if causeGone s d.cause = false then some .cause
  else if commonConditions s = false then some .conditions
  else
    match d.kind with
    | .moving m => movingRefusal s m r
    | .parked _ => none

/-! ## Acceptance (R131, R133) -/

/-- Whether every target conveyance already lies within tolerance of its target depth (R131). -/
def atTargets (s : State) (t : Pair (Option Int)) : Bool := t.a.all (within s .a) && t.b.all (within s .b)

/-- The loader among a pair's two points. -/
def loaderOf (s : State) (p : Pair Nat) : Nat :=
  if (peerOf s p.b).role = .point .loader then p.b else p.a

/-- How far a skip stands from the loader's stop in its compartment. -/
def fromLoader (s : State) (n : Nat) (c : Conv) : Option Nat :=
  match stopDepth s c n, s.w.tr.x.get c with
  | some t, some x => some (apart t x)
  | _, _ => none

/-- A's direction in a resumed leg of a rock winder: UP where A stands nearer the loader's stop (R131, log 16). -/
def rockDirection (s : State) (p : Pair Nat) : Dir :=
  let n := loaderOf s p
  match fromLoader s n .a, fromLoader s n .b with
  | some x, some y => if x < y then .up else .down
  | _, _ => if n = p.a then .down else .up

/-- A's direction in a resumed leg (R96, R131). -/
def resumeDirection (s : State) (t : ResumeTarget) (depths : Pair (Option Int)) : Dir :=
  match t with
  | .level _ => directionTo (depths.a.getD 0) (s.w.tr.x.a.getD 0)
  | .points p => rockDirection s p

/-- A resumed leg begun (R95, R131): the RESUMED cap applies at its value from the first sample (R35, R36). -/
def startResume (d : Record) (m : MovingRecord) (t : ResumeTarget) (s : State) : State :=
  let depths := targetDepths s t
  let m1 := { m with target := t, count := m.count + 1, inProgress := true }
  let s1 :=
    prepare { kind := .resume, dir := resumeDirection s t depths, target := depths, need := none } m.calls
      { s with w.seq.record := some { d with kind := .moving m1 } }
  { s1 with w.env.capResumed := some (flatCap s (wcfg s).inspection) }

/-- An accepted resume of a MOVING record (R131). -/
def acceptMoving (d : Record) (m : MovingRecord) (t : ResumeTarget) (s : State) : State :=
  if atTargets s (targetDepths s t) then restIn .idle { s with w.seq.record := none }
  else startResume d m t s

/-- An accepted resume of a PARKED record: its custodian is held as a restoration (R133). -/
def acceptParked (k : ParkedRecord) (s : State) : State :=
  restIn .idle { s with w.seq.record := none, w.seq.restoration := some (k.custodian, k.level) }

/-- A request that no condition refuses. -/
def acceptResume (d : Record) (r : ResumePosition) (s : State) : State :=
  match d.kind with
  | .parked k => acceptParked k s
  | .moving m =>
    match formTarget s m r with
    | some t => acceptMoving d m t s
    | none => s

/-- The refusal indication set (R135). -/
def showRefusal (x : RefusalShown) (s : State) : State := { s with w.panel.refusal := x }

/-- RESUME becoming active in SUSPENDED (R129). -/
def requestResume (r : ResumePosition) (s : State) : State :=
  match s.w.seq.record with
  | none => s
  | some d =>
    match resumeRefusal s d r with
    | some x => showRefusal (.resume x) s
    | none => acceptResume d r (showRefusal .none s)

/-! ## CANCEL (R92, R134) -/

/-- CANCEL in IDLE: every entry leaves unserved, and the lockout is cleared (R78, R99). -/
def cancelIdle (s : State) : State :=
  let s1 := dropWhere (fun _ => true) (showRefusal .none s)
  { s1 with w.seq.lockout := false }

/-- The DROPPED answers of a record's calls (R134), queued in the record's order: of a READY pair the loader's first (DESIGN
CHOICE, log 58). -/
def answerDropped (calls : List Call) (s : State) : State :=
  calls.foldl (fun t c => queueAnswer (droppedAnswer c) t) s

/-- CANCEL in SUSPENDED: taken where the ANSWER queue has room for the answers it needs (R134). -/
def cancelSuspended (s : State) : State :=
  let calls := recordCalls s.w.seq.record
  if answerRoom calls.length s then
    restIn .idle (answerDropped calls { showRefusal .none s with w.seq.record := none })
  else showRefusal .cancel s

/-! ## Fault reset (R121) -/

/-- A kind's state after a fault reset: HELD becomes CLEAR. -/
def resetKind (k : KindState) : KindState := if k.state = .held then { k with state := .clear } else k

/-- What a fault reset clears (R121). -/
def clearFaults (s : State) : State :=
  { s with
    w.flt.kinds := PerFault.build fun k => resetKind (s.w.flt.kinds.get k)
    w.flt.powerUpTrip := false
    w.seq.lockout := false
    w.panel.refusal := .none }

/-- A fault reset at a winder (R120, R121): TRIPPED is left where TRIP is then released. -/
def faultReset (s : State) : State :=
  let s1 := clearFaults s
  let s2 := { s1 with w.flt.trip := tripLevel s1 }
  if s2.w.seq.wind = .tripped ∧ tripLevel s1 = false then
    restIn (if s2.w.seq.record.isSome then .suspended else .idle) s2
  else s2

end Sys2Proof.Machine
end

