-- ==== Sys2Proof/Machine/Settle.lean ====
section
/-! DEFINITION. What follows at a winder from the state that an event leaves: fault states and reactions, TRIP, the
loss of a start condition, controlled stops, INSPECTION, and the candidate (R80, R94 to R98, R100, R106, R107,
R116 to R119). -/

namespace Sys2Proof.Machine

open Sys2Proof

/-! ## Reactions by wind state (R117) -/

/-- Whether a member's latest STATE reports its enclosure not closed. -/
def reportsOpen (p : Peer) : Bool := (stateOf p).any fun r => !enclosureClosed r

/-- The first member that reports STOP_HOLD or an enclosure not closed (R100, R103). -/
def reportedBar (s : State) : Option Nat :=
  ((members s).find? fun p => showsStop p || reportsOpen p).map (·.node)

/-- The first member that fails conditions 6 or 7, not having been heard included (R94). R98 names as cause the source of a
report that failed the condition; for a point that has announced itself in PREPARING and whose STATE has not been heard the
model names that point's node too (DESIGN CHOICE, log 70). -/
def startBar (s : State) : Option Nat :=
  ((members s).find? fun p => showsStop p || !showsClosed p).map (·.node)

/-- Whether a survey in progress must fail ABORTED (R64). -/
def surveyAborts (s : State) : Bool :=
  s.w.panel.selector != .survey || strongActive s || (reportedBar s).isSome

/-- The survey's part. -/
def surveyStage (s : State) : State :=
  if surveying s && surveyAborts s then failSurvey .aborted none s else s

/-- The target of the leg in PREPARING whose landing or points must not turn away (R94, R129). -/
def legTarget (s : State) : Option ResumeTarget :=
  match s.w.seq.leg, s.w.seq.record with
  | some { kind := .resume, .. }, some { kind := .moving m, .. } => some m.target
  | some _, _ => some (targetOfCalls s s.w.seq.slot)
  | none, _ => none

/-- The fault kind that a landing's latest STATE raises by a flag it carries, the first of R115's table: TRACKING by its
TRACK_DOUBT for a compartment of the winder, GATE_BREACH (R123). A STATE's alarm asserts TRIP, which R98 takes by itself. -/
def flaggedKind (s : State) (n : Nat) : Option FaultKind :=
  (landingReportOf (peerOf s n)).bind fun r =>
    if showsDoubt s r then some .tracking else if r.breach then some .gateBreach else none

/-- The cause that a point whose STATE fails a start condition gives: the fault kind where that STATE carries a fault flag
as well, whatever that kind's reaction, otherwise the point's node (R98). -/
def barCause (s : State) (n : Nat) : Cause := (flaggedKind s n).elim (.node n) .fault

/-- The cause that a turned-away target gives. A landing whose STATE reports it out of service fails condition 9 by that
STATE, whose fault flags go before its node (R98). R98 and R127 name no cause for a landing or a pair's point that has gone
SILENT and so reports nothing: it is that node (DESIGN CHOICE, log 50). -/
def targetCause (s : State) : ResumeTarget → Cause
  | .level l =>
    match landingAt s (cageComp s) l with
    | some p => if statusOf p = .silent then .node p.node else barCause s p.node
    | none => .node 0
  | .points p => .node (if statusOf (peerOf s p.a) = .silent then p.a else p.b)

/-- The cause of a start condition lost in PREPARING, if one is (R98, R127). A kind that is itself a lost condition, ACTIVE
under STOP, goes before the flags of the failing STATE, of several such kinds the first of R115's table is taken, and a member
that fails conditions 6 or 7 goes before the target that fails condition 9 (DESIGN CHOICE, log 59). -/
def lostCause (s : State) : Option Cause :=
  match firstUnder s .stop with
  | some k => some (.fault k)
  | none =>
    match startBar s with
    | some n => some (barCause s n)
    | none =>
      match (legTarget s).filter (targetAway s) with
      | some t => some (targetCause s t)
      | none => if s.w.panel.selector ≠ .normal then some .selector else none

/-- PREPARING's part: a start condition other than TRIP that stops holding (R98). -/
def prepareStage (s : State) : State :=
  if s.w.seq.wind = .preparing then
    match lostCause s with
    | some c => failStart c s
    | none => s
  else s

/-- The cause of a controlled stop of a leg (R100, R103, R117). Where one event brings several, the first kind of
R115's table comes before a node, and the lowest node before others (DESIGN CHOICE, log 51). -/
def stopCauseOf (s : State) : Option Cause :=
  match firstUnder s .stop with
  | some k => some (.fault k)
  | none => (reportedBar s).map Cause.node

/-- RUNNING's part: a STOP reaction, a hold or an open enclosure before the completion flag (R103). -/
def runStage (s : State) : State :=
  if s.w.seq.wind = .running ∧ s.w.env.completion = false then
    match stopCauseOf s with
    | some c => enterStopping c s
    | none => s
  else s

/-- INSPECTION's part: PERMIT withdrawn (R107), the state left at standstill (R106). -/
def inspectStage (s : State) : State :=
  if s.w.seq.wind = .inspection then
    let s1 := if s.w.seq.permit && !inspectionStands s then withdrawPermit s else s
    if s1.w.panel.selector == .normal && !isOn s1.w.panel.driveRunning then leaveInspection s1 else s1
  else s

/-- INSPECTION entered from IDLE or SUSPENDED (R106). -/
def inspectEntry (s : State) : State :=
  if (s.w.seq.wind == .idle || s.w.seq.wind == .suspended) && s.w.panel.selector == .inspection then
    enterInspection s
  else s

/-! ## The candidate (R80, R83, R94 to R96) -/

/-- What a service winder does with its candidate once it has passed its check: nothing while a condition fails,
completion where no motion is needed, otherwise the leg unless the lockout is set (R95, R96). -/
inductive CandidateStep where
  | waits
  | done
  | starts (t x : Int)
  deriving DecidableEq, Repr

/-- The step of a candidate that has passed its check. One within tolerance of its target is complete whatever the start
lockout, which keeps a winder from entering PREPARING (R96, R99; DESIGN CHOICE, log 60). -/
def candidateStep (s : State) (c : Call) : CandidateStep :=
  if commonConditions s && serviceConditions s c then
    match callTarget s c, s.w.tr.x.a with
    | some t, some x =>
      if apart x t ≤ (wcfg s).tol then .done else if s.w.seq.lockout then .waits else .starts t x
    | _, _ => .waits
  else .waits

/-- The service order followed until a candidate waits or starts (R80, R95, R96). `check` says whether the
candidate is formed anew, so that it is checked first; the one after a candidate that needs no motion always is. -/
def followService (check : Bool) : Nat → State → State
  | 0, s => s
  | fuel + 1, s =>
    match serviceOrder s with
    | none => s
    | some c =>
      if check && candidateFails s c then followService check fuel (dropEntry c s)
      else
        match candidateStep s c with
        | .waits => s
        | .done => followService true fuel (removeEntry c s)
        | .starts t x => startCall c t x s

/-- A rock winder's pair started where the conditions hold (R83, R94, R95). -/
def followPair (s : State) : State :=
  match readyPair s with
  | some (l, t) =>
    if commonConditions s && pairAwake s l.origin t.origin && !s.w.seq.lockout then startPair l t s else s
  | none => s

/-- IDLE's part. -/
def idleStage (check : Bool) (s : State) : State :=
  if s.w.seq.wind = .idle then
    if isRock s then followPair s else followService check (s.w.seq.list.length + 1) s
  else s

/-- Whether what the candidate is formed from has changed: IDLE entered, the list, the custody pair, the release
hold, the parked level or the peer table (R80). -/
def candidateChanged (s0 s : State) : Bool :=
  s0.w.seq.wind != s.w.seq.wind || s0.w.seq.list != s.w.seq.list || s0.w.seq.custodian != s.w.seq.custodian
    || s0.w.seq.last != s.w.seq.last || s0.w.seq.releaseHold != s.w.seq.releaseHold
    || s0.w.seq.parked != s.w.seq.parked || s0.peers != s.peers

/-! ## The whole (R116, R117) -/

/-- Conditions and states of the fault kinds, and the stall timer, brought up to date. -/
def refreshFaults (s : State) : State := updateFaults (refreshStall s)

/-- Whether a MOTION frame is due by what has changed: the wind state or the custodian, in Running (R110). -/
def motionDue (s0 s : State) : Bool :=
  s0.step == .run && s.step == .run
    && (s0.w.seq.wind != s.w.seq.wind || s0.w.seq.custodian != s.w.seq.custodian)

/-- A report queued at once where a MOTION frame is due (R110). -/
def noteMotion (s0 s : State) : State := if motionDue s0 s then queueReport s else s

/-- A stage, with the report that its change of the wind state or the custodian queues (R110, log 4). -/
def noting (stage : State → State) (s : State) : State := noteMotion s (stage s)

/-- The stages before the candidate's: TRIP, the survey, PREPARING, RUNNING, INSPECTION left and entered. -/
def settleStages (s : State) : State :=
  noting inspectEntry (noting inspectStage (noting runStage (noting prepareStage (noting surveyStage (noting applyTrip s)))))

/-- What follows at a winder, against the state before the event. The report that the event's own change of custodian
or wind state queues comes before the fault states are brought up to date, so its fault mask is the one from before
the event (DESIGN CHOICE, log 52). -/
def settleWinder (s0 s : State) : State :=
  let s1 := settleStages (refreshFaults (noteMotion s0 s))
  refreshFaults (noting (idleStage (candidateChanged s0 s1)) s1)

end Sys2Proof.Machine
end

