-- ==== Sys2Proof/Machine/SkipLogic.lean ====
section
/-! DEFINITION. The skip point logic (chapter 8): the skip in position, loading and tipping, posting READY, the hold
flags, the RESET key, and the STATE content. -/

namespace Sys2Proof.Machine

open Sys2Proof

/-! ## The point's winder and the skip in position (R163) -/

/-- Whether a report shows a compartment among its winder's two. -/
def reportHas (r : Report) (comp : Nat) : Bool := r.status.first == comp || r.status.second == comp

/-- Whether a peer's latest report makes it the point's winder (R163). -/
def windsSkips (p : PointConfig) (q : Peer) : Bool :=
  (motionOf q).any fun m =>
    m.report.status.kind == .rock
      && (reportHas m.report p.first.comp || p.second.any fun c => reportHas m.report c.comp)

/-- The point's winder; of two, the lower node (R163). -/
def pointWinder (s : State) : Option Peer := s.peers.find? (windsSkips (pcfg s))

/-- The latest report of the point's winder. -/
def pointView (s : State) : Option Report := ((pointWinder s).bind motionOf).map (·.report)

/-- Whether the winder's latest report shows a wind state. -/
def windShown (s : State) (w : WindState) : Bool := (pointView s).any fun r => r.motion.wind == w

/-- X of a compartment's conveyance in a report, where it is known. -/
def shownX (r : Report) (comp : Nat) : Option Int :=
  if r.status.first = comp then r.motion.x.a
  else if r.status.second = comp then r.motion.x.b else none

/-- Whether a skip is in position but for its dispatched mark (R163, R173). -/
def standsAt (s : State) (w : Which) : Bool :=
  match served (pcfg s) w, pointView s with
  | some c, some r =>
    r.motion.wind == .idle
      && (shownX r c.comp).any (fun x => apart x c.stop ≤ (pcfg s).positionTol)
      && s.k.present.at w
      && !((served (pcfg s) w.other).isSome && s.k.present.at w.other)
  | _, _ => false

/-- Whether the skip of a served compartment is in position (R163). -/
def inPlace (s : State) (w : Which) : Bool := standsAt s w && !s.k.mark.at w

/-- The served compartment whose skip is in position. -/
def skipInPlace (s : State) : Option Which :=
  if inPlace s .first then some .first else if inPlace s .second then some .second else none

/-! ## Hold flags (R171, R172) -/

/-- Whether any hold flag is set: STOP_HOLD (R171). -/
def anyFlag (k : SkipPoint) : Bool := k.chuteHold || k.doorHold || k.doorStuck || k.skipLost || k.unready

/-- Whether the loader's chute or the tipper's door is closed; an input not yet qualified reads as off (log 13). -/
def isShut (s : State) : Bool := isOn s.k.closed

/-- Whether no served compartment has a skip present. -/
def noneHere (s : State) : Bool :=
  !s.k.present.a && !((pcfg s).second.isSome && s.k.present.b)

/-- Whether the working skip is present. -/
def workingHere (s : State) : Bool := s.k.working.any fun w => s.k.present.at w

/-- DOOR_HOLD at a tipper while the door is open and no skip is present, in any state (R171). -/
def doorCheck (s : State) : State :=
  if hasRole s .tipper && !isShut s && noneHere s then { s with k.doorHold := true } else s

/-! ## Calls (R168) -/

/-- The compartment of a working skip. -/
def workingComp (s : State) : Option Nat := (s.k.working.bind (served (pcfg s))).map (·.comp)

/-- The READY CALL queued to the winder for a compartment. While the point has no winder no CALL is queued, and the
posting or its repeat does the rest all the same (DESIGN CHOICE, log 61). -/
def queueReady (comp : Nat) (s : State) : State :=
  match pointWinder s with
  | some w => queueCall { target := w.node, ask := .ready comp } s
  | none => s

/-- READY posted: the CALL, its record with status WAITING, and the call timer (R168), the last two without a winder too
(DESIGN CHOICE, log 61). -/
def postReady (s : State) : State :=
  match workingComp s with
  | none => s
  | some comp =>
    queueReady comp
      { s with
        k.posted := true
        k.call := some { comp := comp, status := .waiting, seq := none }
        k.callTimer := hundreds s.config.callTimeout }

/-- The posting state of the point's kind: LOADED at a loader, DUMPED at a tipper. -/
def postingState (s : State) : PointState := if hasRole s .tipper then .dumped else .loaded

/-- LOADED or DUMPED entered: posted yes, unless a hold flag is set (R168). -/
def enterPosting (s : State) : State :=
  let s1 := { s with k.state := postingState s, k.dumpTimer := none, k.posted := false }
  if anyFlag s.k then s1 else postReady s1

/-- The call record discarded, the call timer stopped (R168, R172). -/
def dropCall (s : State) : State := { s with k.posted := false, k.call := none, k.callTimer := none }

/-- Whether a state is one of the posting states (R168). -/
def isPosting : PointState → Bool
  | .loaded => true
  | .dumped => true
  | .ready => true
  | _ => false

/-- Whether the point has agreed to a start: READY, or LOADED or DUMPED with posted yes (R168, R171). -/
def hasAgreed (k : SkipPoint) : Bool := k.state == .ready || (isPosting k.state && k.posted)

/-! ## The states -/

/-- NO_SKIP entered: the working compartment is none (R162). -/
def enterNoSkip (s : State) : State := { s with k.state := .noSkip, k.working := none, k.dumpTimer := none }

/-- IN_POSITION entered from NO_SKIP where a skip is in position (R166). -/
def findSkip (s : State) : State :=
  match skipInPlace s with
  | some w => { s with k.state := .inPosition, k.working := some w }
  | none => s

/-- NO_SKIP's and IN_POSITION's look at the skips, at a report or a skip-present change (R166, R169). -/
def lookForSkip (s : State) : State :=
  match s.k.state with
  | .noSkip => findSkip s
  | .inPosition => if s.k.working.any (inPlace s) then s else enterNoSkip s
  | _ => s

/-- UNREADY_START set, unless another flag is (R171). -/
def raiseUnready (s : State) : State := if anyFlag s.k then s else { s with k.unready := true }

/-- A skip taken as gone with the wind (R168): its dispatched mark is set and its call record discarded. -/
def windAway (s : State) : State :=
  let s1 :=
    match s.k.working with
    | some w => { s with k.mark := s.k.mark.put w true }
    | none => s
  enterNoSkip (dropCall s1)

/-- A report showing PREPARING, at a point that has not agreed to the start (R166, R167, R169, R170, R171). -/
def unreadyStart (s : State) : State :=
  match s.k.state with
  | .inPosition => enterNoSkip (raiseUnready s)
  | .loading => enterNoSkip (raiseUnready s)
  | .dumping => enterNoSkip (raiseUnready s)
  | .doorStuck => raiseUnready s
  | .loaded => raiseUnready s
  | .dumped => raiseUnready s
  | _ => s

/-- A report of the point's winder (R166 to R171). -/
def pointAtReport (s : State) : State :=
  if hasAgreed s.k && (windShown s .preparing || windShown s .running || windShown s .stopping) then windAway s
  else if windShown s .preparing then unreadyStart s
  else lookForSkip s

/-! ## Answers and the call timer (R168) -/

/-- The call record with a new status and sequence number. -/
def setReady (st : ReadyStatus) (seq : Option Nat) (s : State) : State :=
  { s with k.call := s.k.call.map fun c => { c with status := st, seq := seq } }

/-- READY entered at an ACCEPTED or MERGED answer. -/
def enterReady (seq : Nat) (s : State) : State :=
  { setReady .accepted (some seq) s with k.state := .ready, k.callTimer := none }

/-- An ANSWER of kind READY from the point's winder (R168). R168 names the record's status at posting alone; it becomes
ACCEPTED or REFUSED here, and a refusal leaves no number (DESIGN CHOICE, log 54). -/
def pointAnswer (n : Nat) (a : AnswerFrame) (s : State) : State :=
  if (pointWinder s).map (·.node) = some n ∧ a.kind = some .ready then
    if s.k.state = .ready then
      match a.reply with
      | .dropped q =>
        if (s.k.call.bind (·.seq)) = some q then { s with k.state := postingState s, k.posted := false } else s
      | _ => s
    else if isPosting s.k.state && s.k.posted then
      match a.reply with
      | .accepted _ q => enterReady q s
      | .merged q => enterReady q s
      | .refused _ => setReady .refused none s
      | .dropped _ => s
    else s
  else s

/-- The call timer running out in a posting state with posted yes: the CALL is queued again and the timer
restarts (R168), without a winder too (DESIGN CHOICE, log 61). The record is then WAITING again without a number (DESIGN
CHOICE, log 54). -/
def repostReady (s : State) : State :=
  match s.k.call with
  | some c =>
    if (s.k.state == .loaded || s.k.state == .dumped) && s.k.posted then
      queueReady c.comp { setReady .waiting none s with k.callTimer := hundreds s.config.callTimeout }
    else { s with k.callTimer := none }
  | none => { s with k.callTimer := none }

/-! ## Skip present (R164, R167 to R171) -/

/-- The working skip's present lost, by the point's state (R167, R169, R170, R171). -/
def loseSkip (s : State) : State :=
  match s.k.state with
  | .loading => enterNoSkip { s with k.skipLost := true }
  | .dumping => enterNoSkip (lostAtDoor s)
  | .doorStuck => enterNoSkip (lostAtDoor s)
  | .inPosition => enterNoSkip s
  | .loaded => enterNoSkip (dropCall (lostPosting s))
  | .dumped => enterNoSkip (dropCall (lostPosting s))
  | .ready => enterNoSkip (dropCall (lostPosting s))
  | .starting => s
  | .noSkip => s
where
  /-- SKIP_LOST at a tipper's door, with DOOR_HOLD while the door is open (R169, R170). -/
  lostAtDoor (s : State) : State := { s with k.skipLost := true, k.doorHold := s.k.doorHold || !isShut s }
  /-- SKIP_LOST in a posting state, while the winder shows IDLE (R171). -/
  lostPosting (s : State) : State := if windShown s .idle then { s with k.skipLost := true } else s

/-- A pass at a point where a marker is fitted queues its MARKER (R164). -/
def skipPass (c : ServedConfig) (s : State) : State :=
  if c.fitted then queueMarker { comp := c.comp, edge := s.clock } s else s

/-- A skip-present input becoming absent: its dispatched mark clears (R168). -/
def skipGone (w : Which) (s : State) : State :=
  let s1 := { s with k.present := s.k.present.put w false, k.mark := s.k.mark.put w false }
  if s.k.working = some w then loseSkip s1 else lookForSkip s1

/-! ## What follows from the levels (R166 to R172) -/

/-- A hold flag set in a posting state with the skip still present withdraws READY and discards the call record, that
of a dropped READY included (R172). -/
def holdCheck (s : State) : State :=
  if anyFlag s.k && isPosting s.k.state && workingHere s then
    dropCall { s with k.state := postingState s }
  else s

/-- DUMPING entered, the dump timer started (R169). -/
def enterDumping (s : State) : State :=
  { s with k.state := .dumping, k.dumpTimer := some (1000 * (pcfg s).dumpWindow) }

/-- The working of the skip: loading at a loader, tipping at a tipper (R166, R167, R169). -/
def workSkip (s : State) : State :=
  match s.k.state with
  | .inPosition =>
    if hasRole s .tipper then (if isShut s then s else enterDumping s)
    else if isShut s && !isOn s.k.complete && !anyFlag s.k then { s with k.state := .loading }
    else s
  | .loading => if isShut s && isOn s.k.complete then enterPosting s else s
  | .dumping => if isShut s then enterPosting s else s
  | _ => s

/-- LOAD PERMIT by its three conditions (R167). -/
def permitLoad (s : State) : State :=
  { s with k.loadPermit := s.k.state == .loading && windShown s .idle && !anyFlag s.k }

/-- What follows at a skip point from the state that an event leaves. -/
def settleSkip (s : State) : State := permitLoad (workSkip (holdCheck (doorCheck s)))

/-! ## The end of STARTING and the RESET key (R173, R174) -/

/-- A skip point's first state, with the hold flags that the input levels give (R174). -/
def startSkip (s : State) : State :=
  { s with
    k.state := .noSkip
    k.chuteHold := s.k.chuteHold || (hasRole s .loader && !isShut s)
    k.doorHold := s.k.doorHold || (hasRole s .tipper && !isShut s) }

/-- The flags that the RESET key clears (R173). -/
def clearFlags (s : State) : State :=
  { s with
    k.chuteHold := s.k.chuteHold && !isShut s
    k.doorHold := s.k.doorHold && !isShut s
    k.doorStuck := s.k.doorStuck && !isShut s
    k.skipLost := false
    k.unready := false }

/-- The served compartment whose marked skip stands in position (R173). -/
def markedInPlace (s : State) : Option Which :=
  if s.k.mark.a && standsAt s .first then some .first
  else if s.k.mark.b && standsAt s .second then some .second
  else none

/-- The posting rows of the RESET key (R173). -/
def repost (s : State) : State :=
  if anyFlag s.k then s
  else
    match s.k.state with
    | .loaded => if !s.k.posted && workingHere s then postReady s else s
    | .dumped => if !s.k.posted && workingHere s then postReady s else s
    | .noSkip =>
      match markedInPlace s with
      | some w => enterPosting { s with k.mark := s.k.mark.put w false, k.working := some w }
      | none => s
    | _ => s

/-- The RESET key's effect, in R173's order. -/
def resetSkip (s : State) : State :=
  let s1 := clearFlags s
  repost (if s1.k.state = .doorStuck ∧ s1.k.doorStuck = false then enterPosting s1 else s1)

/-! ## STATE (R165) -/

/-- The load report of the point's kind. -/
def ownReport (s : State) : LoadReport := if hasRole s .tipper then .empty else .full

/-- A skip point's STATE content for one served compartment. -/
def skipCompView (s : State) (w : Which) (c : ServedConfig) : SkipComp :=
  let working := s.k.working == some w
  { comp := c.comp
    report := if working && isPosting s.k.state then ownReport s else .none
    ready := working && s.k.posted, present := s.k.present.at w, fitted := c.fitted }

/-- A skip point's STATE content (R165). -/
def skipReport (s : State) : SkipReport :=
  { tipper := hasRole s .tipper, state := s.k.state, closed := isShut s, stopHold := anyFlag s.k
    chuteHold := s.k.chuteHold, doorHold := s.k.doorHold, doorStuck := s.k.doorStuck
    skipLost := s.k.skipLost, unready := s.k.unready
    first := skipCompView s .first (pcfg s).first
    second := (pcfg s).second.map (skipCompView s .second) }

end Sys2Proof.Machine
end

