-- ==== Sys2Proof/Machine/Finish.lean ====
section
/-! DEFINITION. What ends every command: what follows from the levels at the node's role, the frames that a change
queues (R110, R141, R165), and the output pins (R193, R202, R207). -/

namespace Sys2Proof.Machine

open Sys2Proof

/-! ## Output pins (R207) -/

/-- The pins of a WINDER: PERMIT is never held while TRIP is asserted (R109, R118). -/
def winderPins (s : State) : Pins :=
  { PowerUp.pins with permit := s.w.seq.permit && !tripLevel s, trip := tripLevel s }

/-- The pins of a LANDING whose role state is entered (R145, R159). -/
def landingPins (s : State) : Pins :=
  { PowerUp.pins with
    gateRelease := s.l.release, lampWait := lampWait s, lampAccepted := lampAccepted s
    lampCageHere := lampCageHere s, lampFault := lampFault s }

/-- The pins by the role, at a node that has accepted its image. In STARTING a shaft point's outputs stand at their
rest levels (R202). -/
def rolePins (s : State) : Pins :=
  match s.config.role with
  | .winder => winderPins s
  | .landing => if s.step = .run then landingPins s else PowerUp.pins
  | .loader => if s.step = .run then { PowerUp.pins with loadPermit := s.k.loadPermit } else PowerUp.pins
  | .tipper => PowerUp.pins

/-- The output pins (R193, R202, R207). In FAULTED the fault indicator is lit steady and the rest are off. -/
def pinsOf (s : State) : Pins :=
  match s.step with
  | .off => PowerUp.pins
  | .config => PowerUp.pins
  | .faulted => { PowerUp.pins with lampFault := .steady }
  | .listen => rolePins s
  | .run => rolePins s

/-! ## A shaft point's STATE (R141, R165) -/

/-- A shaft point's STATE content as it stands. -/
def ownState (s : State) : StateReport :=
  if hasRole s .landing then .landing (landingReport s) else .skip (skipReport s)

/-- The content but for target present, whose change alone queues nothing (R141, R165). -/
def withoutTarget : StateReport → StateReport
  | .landing r =>
    .landing
      { r with
        first := { r.first with present := false }
        second := r.second.map fun c => { c with present := false } }
  | .skip r =>
    .skip
      { r with
        first := { r.first with present := false }
        second := r.second.map fun c => { c with present := false } }

/-- The STATE interval timer restarted (R141, R165). -/
def restartStateTimer (s : State) : State :=
  if hasRole s .landing then { s with l.stateTimer := hundreds s.config.stateInterval }
  else { s with k.stateTimer := hundreds s.config.stateInterval }

/-- A STATE queued, the interval timer restarting (R141, R165). -/
def queueState (s : State) : State := putState (ownState s) (restartStateTimer s)

/-- A STATE queued at once where the content has changed in Running (R141, R165). -/
def noteState (s0 s : State) : State :=
  if s0.step = .run ∧ s.step = .run ∧ withoutTarget (ownState s0) ≠ withoutTarget (ownState s) then queueState s
  else s

/-! ## The whole -/

/-- What follows at a shaft point in Running from the levels that an event leaves (R148, R166 to R172). -/
def settlePoint (s : State) : State :=
  if s.step = .run then (if hasRole s .landing then applyKey s else settleSkip s) else s

/-- What follows at the node's role in the listen period and in Running (R194). -/
def settle (s0 s : State) : State :=
  if s.step = .listen ∨ s.step = .run then
    if hasRole s .winder then settleWinder s0 s else noteState s0 (settlePoint s)
  else s

/-- The output pins brought up to date. -/
def showPins (s : State) : State := { s with pins := pinsOf s }

/-- The end of every command: what follows from its effect, against the state before it. -/
def finish (s0 s : State) : State := showPins (settle s0 s)

end Sys2Proof.Machine
end

