-- ==== Sys2Proof/Machine/Delivery.lean ====
section
/-! DEFINITION. Delivered frames (R186): hearing, the duplicate of R188, the re-announce of R197, and what each kind
of frame does at each role. -/

namespace Sys2Proof.Machine

open Sys2Proof

/-! ## FAULTED by a duplicate (R188) -/

/-- DUPLICATE_NODE at a winder: ACTIVE, and the trip cause (R135, R188). -/
def raiseDuplicate (s : State) : State :=
  { s with
    w.flt.duplicate := true
    w.flt.kinds := s.w.flt.kinds.set .duplicateNode { present := true, state := .active }
    w.flt.tripCause := .fault .duplicateNode
    w.flt.trip := true }

/-- FAULTED at a winder: a survey in progress ABORTED (R64), PERMIT withdrawn, the ceiling and the reference 0 with the
stall timer stopped by it (R24), custody ended with the DISPATCH entries that lose their entitlement (R78), and the
sample and MOTION timers stopped (R2, R28, R110, R188, log 44). -/
def faultWinder (s : State) : State :=
  let s1 := if surveying s then markSurveyFailed .aborted none s else s
  let s2 := refreshStall (restIn .faulted (purgeDispatch (setPair none none (raiseDuplicate s1))))
  { s2 with w.env.ceiling := 0, w.seq.motionTimer := none, w.sampleTimer := none }

/-- A frame with the node's own number that is not its own (R188): FAULTED, the line controller DISABLED and
emptied (R178). -/
def enterDuplicate (s : State) : State :=
  let s1 := if hasRole s .winder then faultWinder s else s
  { s1 with step := .faulted, line := disableLine s1.line }

/-! ## Delivery (R186, R197) -/

/-- A full set of ANNOUNCE frames queued by an ACTIVE node at a re-announce trigger (R197). -/
def reannounce (trigger : Bool) (s : State) : State :=
  if s.line.mode = .active ∧ trigger = true then queueOwnSet false s else s

/-- Whether an ANNOUNCE has the start mark. -/
def announceStart : Announce → Bool
  | .point p => p.start
  | .winder w => w.start

/-- A frame with the node's own number heard: FAULTED at once (R188), but where an attempt of the node's own runs, at
that attempt's end (R189, log 41). -/
def hearOwn (s : State) : State :=
  if s.line.attempt.isSome then { s with line.heardOwn := true } else enterDuplicate s

/-- A frame delivered from a node with what it does beside being heard; `starts` says that it is an ANNOUNCE with
the start mark set. In DISABLED nothing is received (R178), and a sender that is no node number is discarded
(R185). -/
def deliver (n : Nat) (starts : Bool) (act : State → State) (s : State) : State :=
  if s.line.mode = .disabled ∨ WellFormed.nodeOk n = false then s
  else if n = s.config.node then hearOwn s
  else reannounce (wasAbsent s n || starts) (act (hear n s))

/-! ## What a shaft point's winder shows (R138, R163) -/

/-- A delivered report, or a change of the landing's winder, at a landing (R143 to R147, R153). -/
def landingFollows (s0 : State) (reporter : Option Nat) (s : State) : State :=
  let before := (landingWinder s0).map (·.node)
  let now := (landingWinder s).map (·.node)
  if reporter.isSome && reporter == now then trackCall (landingAtReport s)
  else if before != now then landingAtReport s
  else s

/-- A delivered report, or a change of the point's winder, at a skip point (R166 to R171). -/
def pointFollows (s0 : State) (reporter : Option Nat) (s : State) : State :=
  let before := (pointWinder s0).map (·.node)
  let now := (pointWinder s).map (·.node)
  if (reporter.isSome && reporter == now) || before != now then pointAtReport s else s

/-- What a delivered frame's effect on the peer table does at a shaft point in Running; `reporter` is the winder
whose report it delivers. -/
def pointNotes (s0 : State) (reporter : Option Nat) (s : State) : State :=
  if s.step = .run then
    if hasRole s .landing then landingFollows s0 reporter s
    else if isSkipPoint s then pointFollows s0 reporter s
    else s
  else s

/-! ## ALARM (R122) -/

/-- Whether a mask covers either of the winder's compartments. -/
def coversWinder (s : State) (mask : BitVec 4) : Bool :=
  maskCovers mask (wcfg s).comps.a || maskCovers mask (wcfg s).comps.b

/-- A node entered into the alarm set. -/
def enterAlarm (n : Nat) (s : State) : State := { s with w.flt.alarmSet := addNode n s.w.flt.alarmSet }

/-- A node removed from the alarm set. -/
def leaveAlarm (n : Nat) (s : State) : State :=
  { s with w.flt.alarmSet := s.w.flt.alarmSet.filter fun m => m != n }

/-- An ALARM frame's payload. -/
def takeAlarm (n : Nat) (mask : BitVec 4) (s : State) : State :=
  if hasRole s .winder && coversWinder s mask then enterAlarm n s else s

/-! ## MARKER (R17) -/

/-- A MARKER frame's payload: at a winder, for its own compartments; in SURVEY it goes to the survey, whose outcome
is then IN_PROGRESS. -/
def takeMarker (n comp age : Nat) (s : State) : State :=
  if hasRole s .winder then
    match convOf s comp with
    | none => s
    | some c => if s.w.seq.wind = .survey then surveyByMarker n c age s else correctByMarker n c age s
  else s

/-! ## STATE (R14, R43, R44, R84, R86, R87, R122, R200) -/

/-- What a STATE shows of the alarm, as a mask; none where it shows no alarm. -/
def shownAlarm : StateReport → BitVec 4
  | .landing r => if r.alarm then r.mask else 0#4
  | .skip _ => 0#4

/-- The alarm set after a STATE (R122). -/
def alarmByState (n : Nat) (r : StateReport) (s : State) : State :=
  if coversWinder s (shownAlarm r) then enterAlarm n s else leaveAlarm n s

/-- The load class that a skip point's report of its kind gives (R14). -/
def reportedClass (r : SkipReport) (c : SkipComp) : Option LoadClass :=
  match r.tipper, c.report with
  | false, .full => some .full
  | true, .empty => some .empty
  | _, _ => none

/-- Whether a load report of a point for a conveyance is taken (R14). -/
def loadTaken (s : State) (n : Nat) (c : Conv) : Bool :=
  s.w.seq.wind == .idle && s.w.tr.validated && statusOf (peerOf s n) != .conflict
    && (stopDepth s c n).any (within s c)

/-- A load report for one of the winder's compartments (R14). -/
def loadByComp (n : Nat) (r : SkipReport) (c : Conv) (s : State) : State :=
  match (skipComp r (compOf s c)).bind (reportedClass r) with
  | some k => if loadTaken s n c then { s with w.tr.cls := s.w.tr.cls.set c k } else s
  | none => s

/-- A skip point's load reports at a rock winder (R14). -/
def loadByState (n : Nat) (r : SkipReport) (s : State) : State :=
  if isRock s then loadByComp n r .b (loadByComp n r .a s) else s

/-- A STATE at a winder, beyond the peer table. Its custody field is taken before the trip that its alarm or breach may
bring, which follows in `finish` (DESIGN CHOICE, log 53). -/
def stateAtWinder (n : Nat) (r : StateReport) (s : State) : State :=
  let s1 := alarmByState n r s
  match r with
  | .landing l =>
    let s2 := withdrawReady n r (zonesByState n l.work s1)
    if isRock s2 then s2 else takeCustodyField n l s2
  | .skip k => withdrawReady n r (zonesByState n false (loadByState n k s1))

/-- A STATE frame's payload. -/
def takeStateFrame (n : Nat) (r : StateReport) (s : State) : State :=
  let s1 := takeState n r s
  if hasRole s1 .winder then stateAtWinder n r s1 else pointNotes s none s1

/-! ## CALL and ANSWER (R71, R152, R168, R186, R194) -/

/-- A CALL frame's payload: at a winder in Running that it is addressed to. -/
def takeCallFrame (n : Nat) (c : CallFrame) (s : State) : State :=
  if c.target = s.config.node ∧ s.step = .run ∧ hasRole s .winder = true then takeCall n c.ask s else s

/-- An ANSWER frame's payload: at a shaft point in Running that it is addressed to. -/
def takeAnswerFrame (n : Nat) (a : AnswerFrame) (s : State) : State :=
  if a.target = s.config.node ∧ s.step = .run then
    if hasRole s .landing then landingAnswer n a s
    else if isSkipPoint s then pointAnswer n a s
    else s
  else s

/-! ## ANNOUNCE (R53, R54, R64, R68, R200) -/

/-- Whether an ANNOUNCE changes a point's depths against a former record. -/
def changesDepths (former : Option Geometry) (g : Geometry) : Bool := former.any (depthsDiffer g)

/-- A point's learned entry for a compartment removed (R68). -/
def forgetEntry (n comp : Nat) (s : State) : State :=
  match convOf s comp with
  | none => s
  | some c =>
    { s with w.tr.learned := s.w.tr.learned.set c ((s.w.tr.learned.get c).filter fun e => e.node != n) }

/-- What a shaft point's ANNOUNCE, taken, does at a winder beyond the peer table: the survey it ends, the learned
entry and the zone it removes. `s0` is the state before it. R64 does not say whether an ANNOUNCE that changes a point's role
or level alone adds a point: with the former record removed (R200) the model takes it as one added, so that such an ANNOUNCE
with marker fitted ends a survey ABORTED (DESIGN CHOICE, log 81). -/
def announceAtWinder (s0 : State) (n : Nat) (p : PointAnnounce) (s : State) : State :=
  let g := geometryFrom p
  let former := geometryOf (peerOf s0 n) p.comp
  let kept := if roleDiffers (peerOf s0 n).role (.point p.point) then none else former
  let changed := changesSurvey s0 n former g || changesSurvey s0 n kept g || surveyConflict s0 s
  let s1 := if surveying s && changed then failSurvey .aborted none s else s
  zonesByAnnounce n p.comp g.half (if changesDepths kept g then forgetEntry n p.comp s1 else s1)

/-- A shaft point's ANNOUNCE. One that R53 discards changes nothing. -/
def takePointAnnounce (n : Nat) (p : PointAnnounce) (s : State) : State :=
  if announceTaken p then
    let s1 := takeGeometry n p (takeRole n (.point p.point) s)
    if hasRole s .winder then announceAtWinder s n p s1 else pointNotes s none s1
  else s

/-- What a winder's ANNOUNCE says of its sender: its kind, and one of its compartments as first or second. -/
def announcedWinder (w : WinderAnnounce) : PeerRole :=
  if w.second then .winder w.kind none (some w.comp) else .winder w.kind (some w.comp) none

/-- An ANNOUNCE frame's payload. -/
def takeAnnounce (n : Nat) (a : Announce) (s : State) : State :=
  match a with
  | .point p => takePointAnnounce n p s
  | .winder w => pointNotes s none (takeRole n (announcedWinder w) s)

/-! ## MOTION pages (R187) -/

/-- A delivered page of a report: held, and with its report delivered where it completes one. -/
def takePage (n : Nat) (p : Page) (s : State) : State :=
  let a := addPage s.clock p (assemblyOf s n)
  let s1 := { s with line.assembly := putAssembly (markDelivered a) s.line.assembly }
  match completeReport a with
  | none => s1
  | some m => pointNotes s (some n) (takeMotion n m s1)

/-! ## Any payload (R186) -/

/-- What a payload does beside being heard. -/
def takePayload (n : Nat) (p : Payload) (s : State) : State :=
  match p with
  | .alarm mask => takeAlarm n mask s
  | .marker comp age => takeMarker n comp age s
  | .page g => takePage n g s
  | .state r => takeStateFrame n r s
  | .call c => takeCallFrame n c s
  | .answer a => takeAnswerFrame n a s
  | .announce a => takeAnnounce n a s
  | .heardOnly => s

/-- Whether a payload is an ANNOUNCE with the start mark set (R197). -/
def payloadStarts : Payload → Bool
  | .announce a => announceStart a
  | _ => false

/-- A frame delivered. -/
def deliverFrame (f : Frame) (s : State) : State :=
  deliver f.sender (payloadStarts f.payload) (takePayload f.sender f.payload) s

end Sys2Proof.Machine
end

