-- ==== Sys2Proof/Machine/Image.lean ====
section
/-! DEFINITION. The configuration image (R190 to R192, R205): its fields, its sum, its identity tests, and the
configuration an accepted image gives. -/

namespace Sys2Proof.Machine

open Sys2Proof

/-! ## Fields -/

/-- The byte at an offset. -/
def imageByte (m : List Byte) (i : Nat) : Nat := (m.getD i 0).toNat

/-- A 16-bit field, most significant byte first (R204). -/
def image16 (m : List Byte) (i : Nat) : Nat := imageByte m i * 256 + imageByte m (i + 1)

/-- A 32-bit field, most significant byte first (R204). -/
def image32 (m : List Byte) (i : Nat) : Nat := image16 m i * 65536 + image16 m (i + 2)

/-- A signed 32-bit field in two's complement (R204). -/
def imageSigned (m : List Byte) (i : Nat) : Int := (BitVec.ofNat 32 (image32 m i)).toInt

/-- A byte field with a default: unset when it holds 255 (R205), then clamped (R192). -/
def byteField (m : List Byte) (i lo hi default : Nat) : Nat :=
  clampNat lo hi (if imageByte m i = 255 then default else imageByte m i)

/-- A 16-bit field with a default: unset when both bytes hold 255 (R205), then clamped (R192). -/
def wordField (m : List Byte) (i lo hi default : Nat) : Nat :=
  clampNat lo hi (if image16 m i = 65535 then default else image16 m i)

/-- A 32-bit field with a default: unset when all bytes hold 255 (R205), then clamped (R192). -/
def longField (m : List Byte) (i lo hi default : Nat) : Nat :=
  clampNat lo hi (if image32 m i = 4294967295 then default else image32 m i)

/-! ## The tests of a read -/

/-- The number of bytes of an image (R205). -/
def imageLength : Nat := 208

/-- The total of bytes 0 to 205 modulo 65,536 (R205). -/
def imageSum (m : List Byte) : Nat := ((m.take 206).foldl (fun t b => t + b.toNat) 0) % 65536

/-- Whether the sum matches (R205). -/
def sumMatches (m : List Byte) : Bool := imageSum m == image16 m 206

/-- The role of an image, if its code is one of the four (R191). -/
def imageRole (m : List Byte) : Option Role :=
  match imageByte m 2 with
  | 0 => some .winder
  | 1 => some .landing
  | 2 => some .loader
  | 3 => some .tipper
  | _ => none

/-- The identity tests of a WINDER image (R191). -/
def winderIdentity (m : List Byte) : Bool :=
  imageByte m 16 ≤ 1 && WellFormed.compOk (imageByte m 17) && WellFormed.compOk (imageByte m 18)
    && imageByte m 17 != imageByte m 18

/-- The identity tests of a shaft point's served compartments (R191): the second is 0 for none. -/
def servedIdentity (m : List Byte) : Bool :=
  WellFormed.compOk (imageByte m 17)
    && (imageByte m 18 == 0 || (WellFormed.compOk (imageByte m 18) && imageByte m 17 != imageByte m 18))

/-- The identity tests (R191). -/
def identityOk (m : List Byte) : Bool :=
  image16 m 0 == Config.layoutCode && WellFormed.nodeOk (imageByte m 3) && imageByte m 4 ≤ 1 &&
    match imageRole m with
    | some .winder => winderIdentity m
    | some .landing => WellFormed.levelOk (imageByte m 16) && servedIdentity m
    | some .loader => servedIdentity m
    | some .tipper => servedIdentity m
    | none => false

/-! ## Reactions (R115) -/

/-- The reactions, strongest first. -/
def reactionOrder : List Reaction := [.tripLatched, .tripAuto, .stop, .slow, .report]

/-- A reaction's place in the order TL, TA, STOP, SLOW, REPORT, which is also its code (R205). -/
def reactionRank : Reaction → Nat
  | .tripLatched => 0
  | .tripAuto => 1
  | .stop => 2
  | .slow => 3
  | .report => 4

/-- The allowed reactions of a kind, strongest first. -/
def allowedReactions : FaultKind → List Reaction
  | .overspeed => [.tripLatched, .tripAuto]
  | .overwind => [.tripLatched]
  | .overrun => [.tripAuto, .stop]
  | .encoder => [.tripLatched]
  | .tracking => [.tripLatched, .stop, .slow]
  | .markerMissed => [.stop, .slow, .report]
  | .peerSilent => [.stop, .slow, .report]
  | .gateBreach => [.tripAuto, .stop]
  | .alarm => [.tripLatched]
  | .startFail => [.stop, .report]
  | .lateRestriction => [.stop]
  | .duplicateNode => [.tripLatched]

/-- The allowed reaction nearest to a configured one; of two at the same distance, the stronger. -/
def nearestAllowed (k : FaultKind) (r : Reaction) : Reaction :=
  (leastBy (fun a => apart (reactionRank a) (reactionRank r)) (allowedReactions k)).getD
    (Config.defaultReactions.get k)

/-- The effective reaction that a reaction byte gives a kind: 255 or a value above 4 takes the default. -/
def effectiveReaction (k : FaultKind) (byte : Nat) : Reaction :=
  match reactionOrder[byte]? with
  | some r => nearestAllowed k r
  | none => Config.defaultReactions.get k

/-- The reactions of an image; DUPLICATE_NODE has no byte. -/
def imageReactions (m : List Byte) : PerFault Reaction :=
  PerFault.build fun k =>
    if k = .duplicateNode then Config.defaultReactions.get k
    else effectiveReaction k (imageByte m (185 + k.code))

/-! ## Blocks -/

/-- One layer, at its first byte (R205). -/
def imageLayer (m : List Byte) (i : Nat) : Layer :=
  { turns := clampNat 1 255 (imageByte m i), lam := clampNat 1000000 40000000 (image32 m (i + 1)) }

/-- The layer table at a conveyance block's first byte; a table with no layers is one layer of the first
entry (R192). -/
def imageLayers (m : List Byte) (i : Nat) : List Layer :=
  (List.range (clampNat 1 6 (imageByte m (i + 22)))).map fun n => imageLayer m (i + 23 + 5 * n)

/-- A conveyance block (R205), with B_c no less than U_c + 1,000 (R192). -/
def imageConv (m : List Byte) (i : Nat) : ConvConfig :=
  let upper := clampInt (-100000) 4000000 (imageSigned m (i + 14))
  { r := imageSigned m i
    h := clampNat 0 200000 (image32 m (i + 4))
    z := clampInt (-100000) 4000000 (imageSigned m (i + 8))
    g := clampNat 0 1000 (image16 m (i + 12))
    upper := upper
    lower := max (upper + 1000) (clampInt (-100000) 4000000 (imageSigned m (i + 18)))
    layers := imageLayers m i }

/-- The class values of class code n (R205). -/
def imageClass (m : List Byte) (n : Nat) : ClassConfig :=
  { e := clampNat 0 6000 (image16 m (130 + 4 * n)), top := clampNat 100 20000 (image16 m (132 + 4 * n)) }

/-- The WINDER fields (R205), with the cross-field clamps of R192. -/
def imageWinder (m : List Byte) : WinderConfig :=
  let creep := wordField m 156 100 1000 400
  let inspection := wordField m 166 100 2000 1000
  let markerWindow := wordField m 170 100 2000 500
  { kind := if imageByte m 16 = 0 then .service else .rock
    comps := ⟨imageByte m 17, imageByte m 18⟩
    senseA := if byteField m 19 0 1 0 = 0 then 1 else -1
    countsPerRev := clampNat 4096 65536 (image32 m 20)
    conv := ⟨imageConv m 24, imageConv m 77⟩
    classes := (List.range 5).map (imageClass m)
    maximum := clampNat 1000 20000 (image16 m 150)
    aAcc := clampNat 100 1500 (image16 m 152)
    aRet := clampNat 100 1500 (image16 m 154)
    creep := creep
    creepDist := wordField m 158 0 10000 2000
    tol := byteField m 160 10 200 50
    tolPct := byteField m 161 3 20 8
    tolFloor := wordField m 162 100 1000 300
    relevelWindow := wordField m 164 100 1000 500
    inspection := inspection
    survey := min inspection (wordField m 168 100 2000 800)
    markerWindow := markerWindow
    correctionLimit := max markerWindow (wordField m 172 500 5000 2000)
    surveyWindow := wordField m 174 200 3000 1000
    surveyStartWindow := wordField m 176 50 1000 300
    passWindow := longField m 178 0 100000 0
    passSpeed := max creep (wordField m 182 100 10000 3000)
    startWindow := byteField m 184 1 10 3
    reactions := imageReactions m }

/-- A compartment block (R205): bit 2 has landing, bit 1 serves men, bit 0 marker fitted. A skip point's
has landing and serves men are no (R162). -/
def imageServed (m : List Byte) (landing : Bool) (comp i : Nat) : ServedConfig :=
  { comp := comp
    hasLanding := landing && (m.getD i 0).getLsbD 2
    servesMen := landing && (m.getD i 0).getLsbD 1
    fitted := (m.getD i 0).getLsbD 0
    stop := clampInt (-100000) 4000000 (imageSigned m (i + 1))
    down := clampInt (-100000) 4000000 (imageSigned m (i + 5))
    up := clampInt (-100000) 4000000 (imageSigned m (i + 9)) }

/-- The shaft point fields (R205). Has landing is yes for at most one compartment; of two, the second is
taken as no (R137). -/
def imagePoint (m : List Byte) (landing : Bool) : PointConfig :=
  let first := imageServed m landing (imageByte m 17) 32
  let second := imageServed m landing (imageByte m 18) 48
  { level := if landing then imageByte m 16 else 0
    first := first
    second :=
      if imageByte m 18 = 0 then none
      else some { second with hasLanding := second.hasLanding && !first.hasLanding }
    shaftAlarm := byteField m 19 0 1 0 == 1
    lockWindow := wordField m 20 500 5000 2000
    crossWindow := wordField m 22 500 5000 2000
    positionTol := wordField m 24 20 1000 200
    dumpWindow := byteField m 26 2 60 20
    half := if landing then byteField m 27 0 254 0 else 0
    zoneSpeed := if landing then byteField m 28 1 200 20 else 0 }

/-- The configuration an image gives a role (R192). The silence timeout is clamped in three steps. -/
def imageConfig (m : List Byte) (role : Role) : NodeConfig :=
  let stateInterval := byteField m 5 5 50 10
  { role := role
    node := imageByte m 3
    fast := imageByte m 4 == 1
    stateInterval := stateInterval
    silenceTimeout := max (wordField m 6 30 600 30) (2 * stateInterval + 1)
    callTimeout := byteField m 8 10 254 50
    w := if role = .winder then imageWinder m else Config.noWinder
    p := if role = .winder then Config.noPoint else imagePoint m (role == .landing) }

/-- What the identity tests and the clamps make of an image (R191, R192): a configuration, or nothing. -/
def acceptImage (m : List Byte) : Option NodeConfig :=
  if identityOk m then (imageRole m).map (imageConfig m) else none

end Sys2Proof.Machine
end

