-- ==== Sys2Proof/Machine/StartUp.lean ====
section
/-! DEFINITION. The commands of power-up, the configuration read, the listen period and the loss of supply (R118,
R190 to R196, R202). -/

namespace Sys2Proof.Machine

open Sys2Proof

/-- The answer of every command that ends by `finish`: the state after its effect `s1` from the state `s0`. -/
def done (s0 s1 : State) : Host.Outcome State Fault Refusal := .next (finish s0 s1)

/-! ## Power -/

/-- POWER_UP (R202, R190): every item takes its power-up value and the read starts. The commands that wait are not
the node's (log 37). -/
def execPowerUp (s : State) : Host.Outcome State Fault Refusal := .next { State.reset with pending := s.pending }

/-- LOSS_OF_SUPPLY (R118): the outputs fall to their unenergised levels, so TRIP is asserted; the line controller is
DISABLED and its attempt ended, so that nothing is received or sent (R178). The other items wait for the power-up that
sets them (DESIGN CHOICE, log 36). -/
def execLossOfSupply (s : State) : Host.Outcome State Fault Refusal :=
  .next (showPins { s with step := .off, line := disableLine s.line })

/-! ## The configuration read (R190 to R193) -/

/-- FAULTED entered from the configuration read (R193). -/
def configFault (s : State) : State :=
  { s with step := .faulted, w.seq.wind := .faulted, loader.reading := false, loader.retry := none }

/-- A failed read: started again after 10 ms, or FAULTED after the third (R190). -/
def readFailed (s : State) : State :=
  let s1 := { s with loader.failures := s.loader.failures + 1 }
  if 3 ≤ s1.loader.failures then configFault s1
  else { s1 with loader.reading := false, loader.retry := some Config.retryWait }

/-- A completed read whose sum does not match: the image is read once more, then FAULTED (R190). -/
def sumFailed (s : State) : State :=
  let s1 := { s with loader.badSums := s.loader.badSums + 1 }
  if 2 ≤ s1.loader.badSums then configFault s1 else s1

/-- The winder's items at acceptance: the position sample timer starts (R2), and a counterweight is FIXED (R13,
log 7); a shaft point has no drive port (R206). -/
def winderAccepts (c : NodeConfig) (w : Winder) : Winder :=
  if c.role = .winder then
    { w with
      sampleTimer := some Config.samplePeriod
      tr.cls := if c.w.kind = .service then { w.tr.cls with b := .fixed } else w.tr.cls
      tr.clsSample := if c.w.kind = .service then { w.tr.clsSample with b := .fixed } else w.tr.clsSample }
  else { w with drive.timer := none }

/-- An accepted image (R192). -/
def acceptConfig (c : NodeConfig) (s : State) : State :=
  { s with
    cfg := some c, step := .listen, listen := hundreds c.silenceTimeout, loader.reading := false
    line.mode := .receiveOnly, line.activity := .resync, w := winderAccepts c s.w }

/-- A read that completes with an image (R190 to R192). An image of another length is a read that did not reach
its last byte (log 5). -/
def readCompleted (m : List Byte) (s : State) : State :=
  if m.length ≠ imageLength then readFailed s
  else if sumMatches m = false then sumFailed s
  else
    match acceptImage m with
    | some c => acceptConfig c s
    | none => configFault s

/-- The end of a read. -/
def endRead (r : ReadEnd) (s : State) : State :=
  if s.step = .config ∧ s.loader.reading = true then
    match r with
    | .failed => readFailed s
    | .completed m => readCompleted m s
  else s

/-- CONFIG_READ_END (R190 to R193). -/
def execConfigReadEnd (r : ReadEnd) (s : State) : Host.Outcome State Fault Refusal := done s (endRead r s)

/-- The read started again after its wait (R190). -/
def retryRead (s : State) : State :=
  if s.step = .config ∧ s.loader.retry.isSome = true then
    { s with loader.reading := true, loader.retry := none }
  else s

/-- CONFIG_READ_RETRY (R190). -/
def execConfigReadRetry (s : State) : Host.Outcome State Fault Refusal := done s (retryRead s)

/-! ## The end of the listen period (R195) -/

/-- Running entered by the line controller and with the first ANNOUNCE set (R195). -/
def goActive (s : State) : State :=
  queueOwnSet true { s with step := .run, listen := none, line.mode := .active }

/-- The state of the role entered, with the first periodic frame (R142, R174, R195). -/
def enterRole (s : State) : State :=
  match s.config.role with
  | .winder => queueReport (restIn .tripped s)
  | .landing => queueState (startLanding s)
  | .loader => queueState (startSkip s)
  | .tipper => queueState (startSkip s)

/-- The end of the listen period. -/
def endListen (s : State) : State :=
  if s.step = .listen ∧ s.listen.isSome = true then enterRole (goActive s) else s

/-- LISTEN_TIMER_EXPIRY (R195). -/
def execListenTimerExpiry (s : State) : Host.Outcome State Fault Refusal := done s (endListen s)

end Sys2Proof.Machine
end

