-- ==== Sys2Proof/Machine/WinderTimed.lean ====
section
/-! DEFINITION. The commands of the position sample, the drum encoder and the winder's timers (R2, R3, R24, R87, R97,
R101, R104, R110, R206). -/

namespace Sys2Proof.Machine

open Sys2Proof

/-! ## When a winder acts -/

/-- Whether the node is a WINDER in Running. -/
def winderRuns (s : State) : Bool := s.step == .run && hasRole s .winder

/-- Whether the node is a WINDER in the listen period or in Running (R194). -/
def winderTracks (s : State) : Bool := (s.step == .listen || s.step == .run) && hasRole s .winder

/-- Whether the node has supply and may be a role: its image is not accepted yet, or gives that role. -/
def mayBe (s : State) (r : Role) : Bool := s.step != .off && (s.cfg.isNone || hasRole s r)

/-! ## The position sample (R2) -/

/-- The event-like conditions raised since the latest sample become those present at this one (R114). -/
def takeRaised (s : State) : State :=
  { s with w.flt.atSample := s.w.flt.raised, w.flt.raised := PowerUp.all false }

/-- The tracker's part of a sample (R2). -/
def trackSample (s : State) : State := checkEncoder (followMarkers (computeTrack (takeRaised s)))

/-- The travel that R97 asks of the leg: 100 mm, or the least distance to a stop at the leg's first sample. -/
def travelNeeded (s : State) : Int :=
  match (stopDistances s).map Int.toNat |> least with
  | some d => min Config.startTravel d
  | none => Config.startTravel

/-- The travel latched at the first sample in PREPARING (R97). -/
def latchNeed (s : State) : State :=
  { s with
    w.seq.leg := s.w.seq.leg.map fun g => { g with need := some (g.need.getD (travelNeeded s)) } }

/-- Whether the start handshake is met: drive RUNNING, and the travel made (R97). -/
def handshakeMet (s : State) : Bool :=
  isOn s.w.panel.driveRunning
    && (s.w.seq.leg.bind (·.need)).any fun need => s.w.env.acc.any fun l => need ≤ (travelled s l.n : Int)

/-- PREPARING's part of a sample: RUNNING where the handshake is met and no start condition is lost (R97, R98). A kind
under STOP that becomes ACTIVE at the sample at which the handshake is met goes before it, so that the start fails by R98
(DESIGN CHOICE, log 67). -/
def handshake (s : State) : State :=
  if s.w.seq.wind = .preparing then
    let s1 := latchNeed s
    if handshakeMet s1 && !tripLevel s1 && (lostCause s1).isNone then enterRunning s1 else s1
  else s

/-- The halt-zero timer at a sample: it runs while the halt term is 0 in STOPPING with drive RUNNING (R104). -/
def watchHalt (s : State) : State :=
  if s.w.seq.wind = .stopping ∧ s.w.env.terms.halt = some 0 ∧ isOn s.w.panel.driveRunning = true then
    { s with w.seq.haltZero := some (s.w.seq.haltZero.getD (startWindow s)) }
  else { s with w.seq.haltZero := none }

/-- The sequencer's part of a sample (R61, R63, R69, R79, R88, R97, R104, R133). -/
def sequenceSample (s : State) : State :=
  restoreCustody (endCustody (park (watchHalt (surveySample (handshake s)))))

/-- A position sample: tracker, fault states, envelope, sequencer (log 10). -/
def positionSample (s : State) : State :=
  if winderTracks s && s.w.sampleTimer.isSome then
    let s1 := updateFaults (evaluateEnvelope (updateFaults (trackSample s)))
    { sequenceSample s1 with w.sampleTimer := some Config.samplePeriod }
  else s

/-- POSITION_SAMPLE (R2, R28). -/
def execPositionSample (s : State) : Host.Outcome State Fault Refusal := done s (positionSample s)

/-! ## The drum encoder (R3, R23, R24) -/

/-- A change of the encoder channels. N counts in FAULTED too; an illegal transition is not detected there. -/
def countEdge (e : EncoderChange) (s : State) : State :=
  if mayBe s .winder then
    match e with
    | .forward => restartStall { s with w.tr.n := s.w.tr.n + 1 }
    | .reverse => restartStall { s with w.tr.n := s.w.tr.n - 1 }
    | .illegal => if s.step = .faulted then s else raiseEvent .encoder s
  else s

/-- ENCODER_EDGE (R3, R23). -/
def execEncoderEdge (e : EncoderChange) (s : State) : Host.Outcome State Fault Refusal := done s (countEdge e s)

/-- A stall found (R24). -/
def raiseStall (s : State) : State :=
  if winderTracks s && s.w.tr.stall.isSome then
    { s with w.tr.stallRaised := true, w.tr.stallSeen := true }
  else s

/-- STALL_TIMER_EXPIRY (R24). -/
def execStallTimerExpiry (s : State) : Host.Outcome State Fault Refusal := done s (raiseStall s)

/-! ## The sequencer's timers -/

/-- The start window running out (R97, R61). -/
def startRunsOut (s : State) : State :=
  if winderRuns s && s.w.seq.startTimer.isSome then
    match s.w.seq.wind with
    | .preparing => startFail s
    | .survey => surveyStartFail { s with w.seq.startTimer := none }
    | _ => { s with w.seq.startTimer := none }
  else s

/-- START_TIMER_EXPIRY (R97, R61). -/
def execStartTimerExpiry (s : State) : Host.Outcome State Fault Refusal := done s (startRunsOut s)

/-- The completion wait running out (R101, R66). -/
def completionRunsOut (s : State) : State :=
  if winderRuns s && s.w.seq.completionWait.isSome then
    let s1 := { s with w.seq.completionWait := none }
    match s.w.seq.wind with
    | .running => endLeg s1
    | .survey => endSurvey s1
    | _ => s1
  else s

/-- COMPLETION_WAIT_EXPIRY (R101, R66). -/
def execCompletionWaitExpiry (s : State) : Host.Outcome State Fault Refusal := done s (completionRunsOut s)

/-- The halt term having been 0 for the start window (R104). -/
def haltRunsOut (s : State) : State :=
  if winderRuns s && s.w.seq.haltZero.isSome then
    let s1 := { s with w.seq.haltZero := none }
    if s.w.seq.wind = .stopping then standStill s1 else s1
  else s

/-- HALT_ZERO_TIMEOUT (R104). -/
def execHaltZeroTimeout (s : State) : Host.Outcome State Fault Refusal := done s (haltRunsOut s)

/-- The release hold running out; the service order is then formed again (R87). -/
def holdRunsOut (s : State) : State := if winderRuns s then { s with w.seq.releaseHold := none } else s

/-- RELEASE_HOLD_EXPIRY (R87). -/
def execReleaseHoldExpiry (s : State) : Host.Outcome State Fault Refusal := done s (holdRunsOut s)

/-- The MOTION interval running out (R110). -/
def motionRunsOut (s : State) : State :=
  if winderRuns s && s.w.seq.motionTimer.isSome then queueReport s else s

/-- MOTION_INTERVAL_EXPIRY (R110). -/
def execMotionIntervalExpiry (s : State) : Host.Outcome State Fault Refusal := done s (motionRunsOut s)

/-! ## The drive port (R206) -/

/-- The timed telegram, sent from power-up, in FAULTED included (R206, log 34). -/
def timedTelegram (s : State) : State :=
  if mayBe s .winder && s.w.drive.timer.isSome then
    let s1 := sendTelegram s
    { s1 with w.drive.timer := some Config.telegramPeriod }
  else s

/-- DRIVE_TELEGRAM (R206). -/
def execDriveTelegram (s : State) : Host.Outcome State Fault Refusal := done s (timedTelegram s)

end Sys2Proof.Machine
end

