-- ==== Sys2Proof/Machine/WinderPanel.lean ====
section
/-! DEFINITION. The commands of the drive feedback and the winder driver's panel (R92, R97, R101, R102, R104, R106, R107,
R121, R129, R134). -/

namespace Sys2Proof.Machine

open Sys2Proof

/-! ## Drive RUNNING -/

/-- Drive RUNNING dropping, by the wind state (R97, R101, R102, R104, R64, R66). -/
def driveDrops (s : State) : State :=
  match s.w.seq.wind with
  | .preparing => startFail s
  | .running => if s.w.env.completion then endLeg s else loseDrive s
  | .stopping => standStill s
  | .survey => if s.w.env.completion then endSurvey s else failSurvey .aborted none s
  | _ => s

/-- A new level of drive RUNNING. -/
def driveChanges (on : Bool) (s : State) : State :=
  if mayBe s .winder then
    let s1 := { s with w.panel.driveRunning := some on }
    if winderRuns s && isOn s.w.panel.driveRunning && !on then driveDrops s1 else s1
  else s

/-- DRIVE_RUNNING_CHANGE (R102). -/
def execDriveRunningChange (on : Bool) (s : State) : Host.Outcome State Fault Refusal := done s (driveChanges on s)

/-! ## The mode selector, UP and DOWN -/

/-- A new position of the mode selector; its change returns the refusal indication to NONE (R92, R135). -/
def selectorChanges (p : ModePosition) (s : State) : State :=
  if mayBe s .winder then
    let s1 := { s with w.panel.selector := p }
    if p = s.w.panel.selector then s1 else showRefusal .none s1
  else s

/-- MODE_SELECTOR_CHANGE (R92). What it does to a start, a survey or INSPECTION follows in `finish`. -/
def execModeSelectorChange (normal inspection survey : Bool) (s : State) : Host.Outcome State Fault Refusal :=
  done s (selectorChanges (modePosition normal inspection survey) s)

/-- Whether an input has become active. -/
def rises (before : Input) (now : Bool) : Bool := !isOn before && now

/-- New levels of UP and DOWN, which act in INSPECTION (R107); DOWN taken there returns the refusal indication to
NONE (R135). -/
def directionChanges (up down : Bool) (s : State) : State :=
  if mayBe s .winder then
    let s1 := { s with w.panel.up := some up, w.panel.down := some down }
    if winderRuns s && s.w.seq.wind == .inspection then
      let s2 := if rises s.w.panel.down down then showRefusal .none s1 else s1
      inspectDirection (rises s.w.panel.up up || rises s.w.panel.down down) s2
    else s1
  else s

/-- INSPECTION_DIRECTION (R107). -/
def execInspectionDirection (up down : Bool) (s : State) : Host.Outcome State Fault Refusal :=
  done s (directionChanges up down s)

/-! ## Momentary inputs -/

/-- DOWN becoming active with the selector at SURVEY in IDLE (R57). -/
def requestSurvey (s : State) : State :=
  if mayBe s .winder then
    let s1 := { s with w.panel.down := some true }
    if winderRuns s && s.w.seq.wind == .idle && s.w.panel.selector == .survey then
      if surveyConditions s1 then startSurvey (showRefusal .none s1) else showRefusal .survey s1
    else s1
  else s

/-- SURVEY_REQUEST (R57, R59). -/
def execSurveyRequest (s : State) : Host.Outcome State Fault Refusal := done s (requestSurvey s)

/-- RESUME becoming active (R92, R129): it acts in SUSPENDED. -/
def pressResume (r : ResumePosition) (s : State) : State :=
  if winderRuns s && s.w.seq.wind == .suspended then requestResume r s else s

/-- RESUME_REQUEST (R129). -/
def execResumeRequest (same ahead back : Bool) (s : State) : Host.Outcome State Fault Refusal :=
  done s (pressResume (resumePosition same ahead back) s)

/-- CANCEL becoming active (R92): it acts in IDLE and SUSPENDED. -/
def pressCancel (s : State) : State :=
  if winderRuns s then
    match s.w.seq.wind with
    | .idle => cancelIdle s
    | .suspended => cancelSuspended s
    | _ => s
  else s

/-- CANCEL (R92, R134). -/
def execCancel (s : State) : Host.Outcome State Fault Refusal := done s (pressCancel s)

/-- The driver's reset becoming active (R92): it acts in every wind state but STARTING and FAULTED. -/
def pressReset (s : State) : State :=
  if winderRuns s && s.w.seq.wind != .starting && s.w.seq.wind != .faulted then faultReset s else s

/-- FAULT_RESET (R121). -/
def execFaultReset (s : State) : Host.Outcome State Fault Refusal := done s (pressReset s)

end Sys2Proof.Machine
end

