-- ==== Sys2Proof/Machine/LineCommands.lean ====
section
/-! DEFINITION. The commands of the shaft line: delivered frames, reception, attempts, and peer silence (R176 to R189,
R199). -/

namespace Sys2Proof.Machine

open Sys2Proof

/-! ## Delivered frames (R186) -/

/-- ALARM_FRAME (R122). -/
def execAlarmFrame (n : Nat) (mask : BitVec 4) (s : State) : Host.Outcome State Fault Refusal :=
  done s (deliver n false (takeAlarm n mask) s)

/-- MARKER_FRAME (R17, R62). -/
def execMarkerFrame (n comp age : Nat) (s : State) : Host.Outcome State Fault Refusal :=
  done s (deliver n false (takeMarker n comp age) s)

/-- STATE_FRAME (R200). -/
def execStateFrame (n : Nat) (r : StateReport) (s : State) : Host.Outcome State Fault Refusal :=
  done s (deliver n false (takeStateFrame n r) s)

/-- CALL_FRAME (R71). -/
def execCallFrame (n : Nat) (c : CallFrame) (s : State) : Host.Outcome State Fault Refusal :=
  done s (deliver n false (takeCallFrame n c) s)

/-- ANSWER_FRAME (R152, R168). -/
def execAnswerFrame (n : Nat) (a : AnswerFrame) (s : State) : Host.Outcome State Fault Refusal :=
  done s (deliver n false (takeAnswerFrame n a) s)

/-- ANNOUNCE_FRAME (R53, R200). -/
def execAnnounceFrame (n : Nat) (a : Announce) (s : State) : Host.Outcome State Fault Refusal :=
  done s (deliver n (announceStart a) (takeAnnounce n a) s)

/-- MOTION_PAGE (R187). -/
def execMotionPage (n : Nat) (p : Page) (s : State) : Host.Outcome State Fault Refusal :=
  done s (deliver n false (takePage n p) s)

/-! ## Reception (R184 to R186) -/

/-- Whether the controller follows the line. -/
def follows (s : State) : Bool := s.line.mode != .disabled

/-- The time that a frame takes on the line, in whole ms rounded up: 34 + 8 × n bit times (R176). -/
def frameTime (s : State) (r : RawFrame) : Nat :=
  let bits := 34 + 8 * r.length.toNat
  if s.config.fast then (bits + 19) / 20 else (bits + 9) / 10

/-- The moment of the start bit of a frame that has just ended: as noted, or by the frame's own length. -/
def startOf (s : State) (r : RawFrame) : Nat := s.line.rxStart.getD (s.clock - frameTime s r)

/-- A completed MARKER put in the receive buffer, which holds two (R178, R186, log 35). -/
def holdMarker (m : HeldMarker) (s : State) : State :=
  if s.line.rxMarkers.length < 2 then { s with line.rxMarkers := s.line.rxMarkers ++ [m] } else s

/-- A frame that passes R185: a MARKER waits for its delivery moment, every other frame is delivered (R186). -/
def acceptFrame (start : Nat) (f : Frame) (s : State) : State :=
  match f.payload with
  | .marker comp age =>
    holdMarker { sender := f.sender, comp := comp, age := age, due := start + Config.markerDelay } s
  | _ => deliverFrame f s

/-- A frame's end delimiter ending without error (R184, R185). -/
def receiveFrame (r : RawFrame) (s : State) : State :=
  if follows s && (s.line.activity == .idle || s.line.activity == .receiving) then
    let s1 := { s with line.activity := .receiving, line.interframe := true, line.rxStart := none }
    match decodeFrame r with
    | some f => acceptFrame (startOf s r) f s1
    | none => s1
  else s

/-- FRAME_RECEIVED (R185). -/
def execFrameReceived (r : RawFrame) (s : State) : Host.Outcome State Fault Refusal := done s (receiveFrame r s)

/-- The oldest held MARKER delivered (R186). -/
def deliverMarker (s : State) : State :=
  match s.line.rxMarkers with
  | [] => s
  | m :: ms => deliver m.sender false (takeMarker m.sender m.comp m.age) { s with line.rxMarkers := ms }

/-- MARKER_DELIVERY_MOMENT (R186). -/
def execMarkerDeliveryMoment (s : State) : Host.Outcome State Fault Refusal := done s (deliverMarker s)

/-- A frame error: the frame is discarded and the line activity is RESYNC (R184). -/
def frameFails (s : State) : State :=
  if follows s && (s.line.activity == .idle || s.line.activity == .receiving) then
    { s with line.activity := .resync, line.interframe := false, line.rxStart := none }
  else s

/-- FRAME_ERROR (R184). -/
def execFrameError (s : State) : Host.Outcome State Fault Refusal := done s (frameFails s)

/-- 170 recessive bit times in RESYNC (R184). -/
def endResync (s : State) : State :=
  if follows s && s.line.activity == .resync then { s with line.activity := .idle } else s

/-- RESYNC_END (R184). -/
def execResyncEnd (s : State) : Host.Outcome State Fault Refusal := done s (endResync s)

/-- Another node's start bit on an idle line (R179, R184). -/
def startBit (s : State) : State :=
  if follows s && s.line.activity == .idle then
    { s with line.activity := .receiving, line.rxStart := some s.clock }
  else s

/-- START_BIT_RECEIVED (R179, R184). -/
def execStartBitReceived (s : State) : Host.Outcome State Fault Refusal := done s (startBit s)

/-- The space after an end delimiter: idle when it stays recessive, RESYNC at a dominant bit (R176, R184). -/
def endSpace (dominant : Bool) (s : State) : State :=
  if follows s && s.line.interframe then
    { s with line.interframe := false, line.activity := if dominant then .resync else .idle }
  else s

/-- INTERFRAME_SPACE_END (R176, R184). -/
def execInterframeSpaceEnd (dominant : Bool) (s : State) : Host.Outcome State Fault Refusal :=
  done s (endSpace dominant s)

/-! ## Attempts (R179, R180) -/

/-- ATTEMPT_START (R179). -/
def execAttemptStart (s : State) : Host.Outcome State Fault Refusal := done s (startAttempt s)

/-- The fresh frame that the owning block queues after an aborted attempt, where no pending frame waited: a new
report or STATE, or an ANNOUNCE that keeps the start mark (R180, R182, R196). -/
def queueFresh (a : Attempt) (l : LineController) (s : State) : State :=
  match a.place, a.frame.payload with
  | .periodic, _ =>
    if l.pendingPeriodic.isSome then s else if hasRole s .winder then queueReport s else queueState s
  | .announce w, .announce x => if (l.pendingAnnounce.at w).isSome then s else queueOwn w (announceStart x) s
  | _, _ => s

/-- A freed ANSWER place given to the earliest dropping entry (R77, R180). R77 lets a CALL that arrives as the place frees
be taken before or after; the model gives the place to the dropping entry within the attempt's end, so that such a CALL
finds it taken (DESIGN CHOICE, log 73). -/
def freeAnswer (a : Attempt) (s : State) : State := if a.place = .answer then serveDropping s else s

/-- What an attempt's end does to its place and to the line (R180). -/
def attemptEnds (e : AttemptEnding) (a : Attempt) (s : State) : State :=
  match e with
  | .lost => { s with line := loseAttempt a s.line }
  | .completed => freeAnswer a { s with line := completeAttempt a s.line }
  | .aborted => freeAnswer a (queueFresh a s.line { s with line := abortAttempt a s.line })

/-- The end of the attempt on the line (R180); a frame with the node's own number delivered while it ran now gives
FAULTED (R189). -/
def endAttempt (e : AttemptEnding) (s : State) : State :=
  match s.line.attempt with
  | none => s
  | some a => if s.line.heardOwn then enterDuplicate (attemptEnds e a s) else attemptEnds e a s

/-- ATTEMPT_END (R180). -/
def execAttemptEnd (e : AttemptEnding) (s : State) : Host.Outcome State Fault Refusal := done s (endAttempt e s)

/-! ## Silence (R199) -/

/-- Whether a peer's silence timer runs. -/
def silenceRuns (s : State) (n : Nat) : Bool := (peerOf s n).silence.isSome

/-- A peer's silence timer running out, in the listen period or in Running. -/
def peerSilent (n : Nat) (s : State) : State :=
  if (s.step == .listen || s.step == .run) && silenceRuns s n then setPeer (silentPeer (peerOf s n)) s else s

/-- SILENCE_TIMEOUT (R199). -/
def execSilenceTimeout (n : Nat) (s : State) : Host.Outcome State Fault Refusal := done s (peerSilent n s)

end Sys2Proof.Machine
end

