-- ==== Sys2Proof/Machine/LandingCommands.lean ====
section
/-! DEFINITION. The commands of a landing's buttons, keys, contacts and marker loops, and the timers of a shaft point
(R139 to R160, R165, R168). -/

namespace Sys2Proof.Machine

open Sys2Proof

/-! ## When a landing acts -/

/-- Whether the node is a LANDING in Running; in STARTING no rule acts on a change (R139). -/
def landingRuns (s : State) : Bool := s.step == .run && hasRole s .landing

/-- Whether the node is a skip point in Running (R164). -/
def skipRuns (s : State) : Bool := s.step == .run && isSkipPoint s

/-- A landing's own act in Running; at any other node or step nothing. -/
def atLanding (act : State → State) (s : State) : State := if landingRuns s then act s else s

/-! ## Timers -/

/-- The STATE interval running out (R141, R165). -/
def stateRunsOut (s : State) : State :=
  if (landingRuns s && s.l.stateTimer.isSome) || (skipRuns s && s.k.stateTimer.isSome) then queueState s else s

/-- STATE_INTERVAL_EXPIRY (R141, R165). -/
def execStateIntervalExpiry (s : State) : Host.Outcome State Fault Refusal := done s (stateRunsOut s)

/-- A landing's call timer running out: NO_ANSWER while WAITING (R151, R152). -/
def callRunsOut (s : State) : State :=
  let s1 := { s with l.callTimer := none }
  match s.l.call with
  | some c => if c.status = .waiting then writeCall { c with status := .noAnswer } s1 else s1
  | none => s1

/-- A shaft point's call timer running out (R151, R168). -/
def callTimesOut (s : State) : State :=
  if landingRuns s && s.l.callTimer.isSome then callRunsOut s
  else if skipRuns s && s.k.callTimer.isSome then repostReady s
  else s

/-- CALL_TIMEOUT (R151, R168). -/
def execCallTimeout (s : State) : Host.Outcome State Fault Refusal := done s (callTimesOut s)

/-- The lock window running out in LOCKING: LOCK_FAIL, and CUSTODY again (R146). -/
def lockRunsOut (s : State) : State :=
  if s.l.lockTimer.isSome then
    if s.l.state = .locking then backToCustody { s with l.lockFail := true } else { s with l.lockTimer := none }
  else s

/-- LOCK_TIMER_EXPIRY (R146). -/
def execLockTimerExpiry (s : State) : Host.Outcome State Fault Refusal := done s (atLanding lockRunsOut s)

/-- The FAULT lamp's flash ending (R159). -/
def flashRunsOut (s : State) : State := { s with l.flash := none }

/-- FLASH_TIMER_EXPIRY (R159). -/
def execFlashTimerExpiry (s : State) : Host.Outcome State Fault Refusal := done s (atLanding flashRunsOut s)

/-! ## Buttons (R150) -/

/-- CALL_BUTTON (R150). -/
def execCallButton (s : State) : Host.Outcome State Fault Refusal := done s (atLanding pressCall s)

/-- DISPATCH_BUTTON with what the selectors show (R139, R150). -/
def execDispatchButton (dest : BitVec 5) (empty men material : Bool) (s : State) : Host.Outcome State Fault Refusal :=
  done s (atLanding (pressDispatch dest.toNat (classSelector empty men material)) s)

/-- RELEASE_BUTTON (R150). -/
def execReleaseButton (s : State) : Host.Outcome State Fault Refusal := done s (atLanding pressRelease s)

/-- RELEVEL_BUTTON (R150). -/
def execRelevelButton (s : State) : Host.Outcome State Fault Refusal := done s (atLanding pressRelevel s)

/-! ## Contacts, switches and keys -/

/-- New levels of the gate contacts (R140); in Running they act (R143 to R149). -/
def gateChanges (closed locked : Bool) (s : State) : State :=
  if mayBe s .landing then
    let s1 := { s with l.gateClosed := some closed, l.gateLocked := some locked }
    atLanding (gateActs (gateOfInputs s) (isOn s.l.gateClosed && !closed)) s1
  else s

/-- GATE_CONTACT_CHANGE (R140). -/
def execGateContactChange (closed locked : Bool) (s : State) : Host.Outcome State Fault Refusal :=
  done s (gateChanges closed locked s)

/-- A new level of the STOP switch (R154). -/
def stopChanges (on : Bool) (s : State) : State :=
  if mayBe s .landing then { s with l.stopSwitch := some on } else s

/-- STOP_SWITCH_CHANGE (R154). -/
def execStopSwitchChange (on : Bool) (s : State) : Host.Outcome State Fault Refusal := done s (stopChanges on s)

/-- A new level of the SHAFT WORK switch (R154). -/
def workChanges (on : Bool) (s : State) : State :=
  if mayBe s .landing then { s with l.workSwitch := some on } else s

/-- SHAFT_WORK_SWITCH_CHANGE (R154). -/
def execShaftWorkSwitchChange (on : Bool) (s : State) : Host.Outcome State Fault Refusal := done s (workChanges on s)

/-- The OUT OF SERVICE key turned off: NO_CAGE, and R143 at once (R148). -/
def keyOff (s : State) : State := if s.l.state = .outOfService then evaluateCage s else s

/-- A new level of the OUT OF SERVICE key; turned on, it takes the landing in `finish` (R148). -/
def keyChanges (on : Bool) (s : State) : State :=
  if mayBe s .landing then
    let s1 := { s with l.outKey := some on }
    if on then s1 else atLanding keyOff s1
  else s

/-- OUT_OF_SERVICE_KEY_CHANGE (R148). -/
def execOutOfServiceKeyChange (on : Bool) (s : State) : Host.Outcome State Fault Refusal := done s (keyChanges on s)

/-- New levels of the EMERGENCY channels; becoming active in Running queues one ALARM frame (R155). -/
def emergencyChanges (c1 c2 : Bool) (s : State) : State :=
  if mayBe s .landing then
    let s1 := { s with l.emergency1 := some c1, l.emergency2 := some c2 }
    if !emergency s && emergency s1 then atLanding (queueAlarm (alarmMask (pcfg s))) s1 else s1
  else s

/-- EMERGENCY_CHANGE (R155). -/
def execEmergencyChange (c1 c2 : Bool) (s : State) : Host.Outcome State Fault Refusal := done s (emergencyChanges c1 c2 s)

/-- LANDING_RESET_KEY (R160). -/
def execLandingResetKey (s : State) : Host.Outcome State Fault Refusal := done s (atLanding resetLanding s)

/-! ## Marker loops (R156, R157) -/

/-- Whether a loop of a LANDING is supervised in the listen period or in Running: its compartment is configured with
marker fitted (R137, R156). -/
def supervised (s : State) (w : Which) : Bool :=
  (s.step == .listen || s.step == .run) && hasRole s .landing && (served (pcfg s) w).any (·.fitted)

/-- One loop replaced. -/
def setLoop (w : Which) (m : MarkerLoop) (s : State) : State := { s with l.loops := s.l.loops.put w m }

/-- A loop with a class and a status; a change of the status in Running queues an ANNOUNCE of its compartment
(R156). -/
def classLoop (w : Which) (cls : LoopClass) (faulty : Bool) (s : State) : State :=
  let old := s.l.loops.at w
  let s1 := setLoop w { old with cls := cls, faulty := faulty } s
  if s.step = .run ∧ old.faulty ≠ faulty then queueOwn w false s1 else s1

/-- Whether a class is one of the two of a fault. -/
def faultClass (c : LoopClass) : Bool := c == .opened || c == .short

/-- A loop that has been OPEN or SHORT for 100 ms (R156). -/
def loopFails (w : Which) (microamps : Nat) (s : State) : State :=
  if supervised s w then
    let cls := faultyClass microamps (s.l.loops.at w).cls
    classLoop w cls ((s.l.loops.at w).faulty || faultClass cls) s
  else s

/-- LOOP_FAULT (R156). -/
def execLoopFault (w : Which) (microamps : Nat) (s : State) : Host.Outcome State Fault Refusal :=
  done s (loopFails w microamps s)

/-- A loop that has been CLEAR or ACTIVE for 1 s (R156). -/
def loopRecovers (w : Which) (microamps : Nat) (s : State) : State :=
  if supervised s w then
    let cls := soundClass microamps (s.l.loops.at w).cls
    classLoop w cls ((s.l.loops.at w).faulty && faultClass cls) s
  else s

/-- LOOP_OK (R156). -/
def execLoopOk (w : Which) (microamps : Nat) (s : State) : Host.Outcome State Fault Refusal :=
  done s (loopRecovers w microamps s)

/-- A loop that has changed from CLEAR to ACTIVE: in Running, at an OK and armed loop, it is a pass (R157). -/
def loopPasses (w : Which) (s : State) : State :=
  if supervised s w then
    let m := s.l.loops.at w
    let s1 := setLoop w { m with cls := .active } s
    match served (pcfg s) w with
    | some c => if s.step = .run ∧ m.faulty = false ∧ m.armed = true then takePass w c s1 else s1
    | none => s1
  else s

/-- MARKER_PASS (R157, R158). -/
def execMarkerPass (w : Which) (s : State) : Host.Outcome State Fault Refusal := done s (loopPasses w s)

/-- A loop that has been CLEAR for 200 ms: it is armed again (R157). -/
def loopRearms (w : Which) (s : State) : State :=
  if supervised s w then setLoop w { s.l.loops.at w with cls := .clear, armed := true } s else s

/-- PASS_REARM (R157). -/
def execPassRearm (w : Which) (s : State) : Host.Outcome State Fault Refusal := done s (loopRearms w s)

end Sys2Proof.Machine
end

