-- ==== Sys2Proof/Machine/SkipCommands.lean ====
section
/-! DEFINITION. The commands of a skip point's inputs, its dump timer and its RESET key (R164 to R173). -/

namespace Sys2Proof.Machine

open Sys2Proof

/-- Whether the node has supply and may be a skip point that serves a compartment at an input: its image is not
accepted yet, or gives it (R162, R164). -/
def mayServe (s : State) (w : Which) : Bool :=
  s.step != .off && (s.cfg.isNone || (isSkipPoint s && (served (pcfg s) w).isSome))

/-- Skip present as a level of an input. -/
def setPresent (w : Which) (on : Bool) (s : State) : State := { s with k.present := s.k.present.put w on }

/-- What a skip-present edge does in Running: a pass, and a look at the skips (R164, R166). -/
def edgeActs (w : Which) (s : State) : State :=
  match served (pcfg s) w with
  | some c => lookForSkip (skipPass c s)
  | none => s

/-- A skip-present input becoming present (R164). -/
def skipArrives (w : Which) (s : State) : State :=
  if mayServe s w && !s.k.present.at w then
    let s1 := setPresent w true s
    if skipRuns s then edgeActs w s1 else s1
  else s

/-- SKIP_PRESENT_EDGE (R164). -/
def execSkipPresentEdge (w : Which) (s : State) : Host.Outcome State Fault Refusal := done s (skipArrives w s)

/-- A skip-present input becoming absent (R164, R167 to R171). -/
def skipLeaves (w : Which) (s : State) : State :=
  if mayServe s w && s.k.present.at w then (if skipRuns s then skipGone w s else setPresent w false s) else s

/-- SKIP_PRESENT_LOST (R164). -/
def execSkipPresentLost (w : Which) (s : State) : Host.Outcome State Fault Refusal := done s (skipLeaves w s)

/-- A new level of the loader's chute closed input; an opening outside LOADING sets CHUTE_HOLD (R171). -/
def chuteChanges (closed : Bool) (s : State) : State :=
  if mayBe s .loader then
    let s1 := { s with k.closed := some closed }
    if skipRuns s && isShut s && !closed && s.k.state != .loading then { s1 with k.chuteHold := true } else s1
  else s

/-- CHUTE_CONTACT_CHANGE (R171). What else it does follows in `finish`. -/
def execChuteContactChange (closed : Bool) (s : State) : Host.Outcome State Fault Refusal := done s (chuteChanges closed s)

/-- A new level of the tipper's door closed input; an opening outside IN_POSITION sets DOOR_HOLD (R171). -/
def doorChanges (closed : Bool) (s : State) : State :=
  if mayBe s .tipper then
    let s1 := { s with k.closed := some closed }
    if skipRuns s && isShut s && !closed && s.k.state != .inPosition then { s1 with k.doorHold := true } else s1
  else s

/-- DOOR_CONTACT_CHANGE (R171). What else it does follows in `finish`. -/
def execDoorContactChange (closed : Bool) (s : State) : Host.Outcome State Fault Refusal := done s (doorChanges closed s)

/-- A new level of the loading complete input (R164). -/
def completeChanges (on : Bool) (s : State) : State :=
  if mayBe s .loader then { s with k.complete := some on } else s

/-- LOADING_COMPLETE_INPUT (R167). What it does follows in `finish`. -/
def execLoadingCompleteInput (on : Bool) (s : State) : Host.Outcome State Fault Refusal := done s (completeChanges on s)

/-- The dump timer running out in DUMPING: DOOR_STUCK, the state and the flag (R169, R170). -/
def dumpRunsOut (s : State) : State :=
  if skipRuns s && s.k.dumpTimer.isSome then
    let s1 := { s with k.dumpTimer := none }
    if s.k.state = .dumping then { s1 with k.state := .doorStuck, k.doorStuck := true } else s1
  else s

/-- DUMP_TIMER_EXPIRY (R169, R170). -/
def execDumpTimerExpiry (s : State) : Host.Outcome State Fault Refusal := done s (dumpRunsOut s)

/-- The RESET key at a skip point in Running (R173). -/
def pressSkipReset (s : State) : State := if skipRuns s then resetSkip s else s

/-- SKIP_POINT_RESET_KEY (R173). -/
def execSkipPointResetKey (s : State) : Host.Outcome State Fault Refusal := done s (pressSkipReset s)

end Sys2Proof.Machine
end

