-- ==== Sys2Proof/Machine/Clock.lean ====
section
/-! DEFINITION. The passing of a millisecond, and the timed commands that fall due (log 2). -/

namespace Sys2Proof.Machine

open Sys2Proof

/-! ## One millisecond -/

/-- A millisecond of the winder's timers; the stall timer counts up (R24). -/
def tickWinder (w : Winder) : Winder :=
  { w with
    tr.stall := w.tr.stall.map (· + 1)
    seq.startTimer := runTimer w.seq.startTimer
    seq.completionWait := runTimer w.seq.completionWait
    seq.haltZero := runTimer w.seq.haltZero
    seq.releaseHold := runTimer w.seq.releaseHold
    seq.motionTimer := runTimer w.seq.motionTimer
    drive.timer := runTimer w.drive.timer
    sampleTimer := runTimer w.sampleTimer }

/-- A millisecond of the landing's timers. -/
def tickLanding (l : Landing) : Landing :=
  { l with
    lockTimer := runTimer l.lockTimer
    callTimer := runTimer l.callTimer
    stateTimer := runTimer l.stateTimer
    flash := runTimer l.flash }

/-- A millisecond of the skip point's timers. -/
def tickSkip (k : SkipPoint) : SkipPoint :=
  { k with
    dumpTimer := runTimer k.dumpTimer
    callTimer := runTimer k.callTimer
    stateTimer := runTimer k.stateTimer }

/-- A millisecond of a peer's silence timer (R199). -/
def tickPeer (p : Peer) : Peer := { p with silence := runTimer p.silence }

/-- One millisecond with nothing due. In FAULTED the timers keep their values but for the telegram's (R174, R206,
log 28). -/
def tick (s : State) : State :=
  if s.step = .faulted then { s with clock := s.clock + 1, w.drive.timer := runTimer s.w.drive.timer }
  else
    { s with
      clock := s.clock + 1
      loader.retry := runTimer s.loader.retry
      listen := runTimer s.listen
      peers := s.peers.map tickPeer
      w := tickWinder s.w
      l := tickLanding s.l
      k := tickSkip s.k }

/-! ## What falls due -/

/-- A command, where its condition holds. -/
def dueIf (b : Bool) (c : Instr) : Option Instr := if b then some c else none

/-- The silence timeout of the first peer whose timer has run out (R199). -/
def dueSilence (peers : List Peer) : Option Instr :=
  (peers.find? fun p => isDue p.silence).map fun p => .silenceTimeout p.node

/-- Whether the oldest held MARKER has reached its delivery moment (R186). -/
def markerDue (s : State) : Bool := s.line.rxMarkers.head?.any fun m => m.due ≤ s.clock

/-- The winder's timed commands in their fixed order. -/
def dueWinder (s : State) : List (Option Instr) :=
  [ dueIf (isDue s.w.sampleTimer) .positionSample
  , dueIf (isDue s.w.drive.timer) .driveTelegram
  , dueIf (s.w.tr.stall.any (Config.stallTime ≤ ·) && !s.w.tr.stallRaised) .stallTimerExpiry
  , dueIf (isDue s.w.seq.startTimer) .startTimerExpiry
  , dueIf (isDue s.w.seq.completionWait) .completionWaitExpiry
  , dueIf (isDue s.w.seq.haltZero) .haltZeroTimeout
  , dueIf (isDue s.w.seq.releaseHold) .releaseHoldExpiry
  , dueIf (isDue s.w.seq.motionTimer) .motionIntervalExpiry ]

/-- A shaft point's timed commands in their fixed order. -/
def duePoint (s : State) : List (Option Instr) :=
  [ dueIf (isDue s.l.stateTimer || isDue s.k.stateTimer) .stateIntervalExpiry
  , dueIf (isDue s.l.callTimer || isDue s.k.callTimer) .callTimeout
  , dueIf (isDue s.l.lockTimer) .lockTimerExpiry
  , dueIf (isDue s.l.flash) .flashTimerExpiry
  , dueIf (isDue s.k.dumpTimer) .dumpTimerExpiry ]

/-- The timed commands of every role. -/
def dueNode (s : State) : List (Option Instr) :=
  [ dueIf (isDue s.loader.retry) .configReadRetry
  , dueIf (isDue s.listen) .listenTimerExpiry
  , dueSilence s.peers
  , dueIf (markerDue s) .markerDeliveryMoment ]

/-- The first timed command that is due (log 2). -/
def dueCommand (s : State) : Option Instr :=
  match s.step with
  | .off => none
  | .faulted => dueIf (isDue s.w.drive.timer) .driveTelegram
  | _ => (dueNode s ++ dueWinder s ++ duePoint s).findSome? id

/-- What happens while no command waits: a timed command that is due becomes a waiting one, otherwise a
millisecond passes. Without supply nothing happens. -/
def idle (s : State) : State :=
  if s.step = .off then s
  else
    match dueCommand s with
    | some c => { s with pending := [c] }
    | none => tick s

end Sys2Proof.Machine
end

