-- ==== Sys2Proof/Machine/Dispatch.lean ====
section
/-! DEFINITION. The meaning of each command: one arm for each row of spec/opcode_table.json. -/

namespace Sys2Proof.Machine

open Sys2Proof

def exec (i : Instr) (s : State) : Host.Outcome State Fault Refusal :=
  match i with
  | .powerUp => Sys2Proof.Machine.execPowerUp s
  | .configReadEnd r => Sys2Proof.Machine.execConfigReadEnd r s
  | .configReadRetry => Sys2Proof.Machine.execConfigReadRetry s
  | .listenTimerExpiry => Sys2Proof.Machine.execListenTimerExpiry s
  | .positionSample => Sys2Proof.Machine.execPositionSample s
  | .encoderEdge e => Sys2Proof.Machine.execEncoderEdge e s
  | .stallTimerExpiry => Sys2Proof.Machine.execStallTimerExpiry s
  | .driveRunningChange on => Sys2Proof.Machine.execDriveRunningChange on s
  | .startTimerExpiry => Sys2Proof.Machine.execStartTimerExpiry s
  | .completionWaitExpiry => Sys2Proof.Machine.execCompletionWaitExpiry s
  | .haltZeroTimeout => Sys2Proof.Machine.execHaltZeroTimeout s
  | .releaseHoldExpiry => Sys2Proof.Machine.execReleaseHoldExpiry s
  | .modeSelectorChange normal inspection survey => Sys2Proof.Machine.execModeSelectorChange normal inspection survey s
  | .inspectionDirection up down => Sys2Proof.Machine.execInspectionDirection up down s
  | .surveyRequest => Sys2Proof.Machine.execSurveyRequest s
  | .resumeRequest same ahead back => Sys2Proof.Machine.execResumeRequest same ahead back s
  | .cancel => Sys2Proof.Machine.execCancel s
  | .faultReset => Sys2Proof.Machine.execFaultReset s
  | .alarmFrame sender mask => Sys2Proof.Machine.execAlarmFrame sender mask s
  | .markerFrame sender comp age => Sys2Proof.Machine.execMarkerFrame sender comp age s
  | .stateFrame sender r => Sys2Proof.Machine.execStateFrame sender r s
  | .callFrame sender c => Sys2Proof.Machine.execCallFrame sender c s
  | .answerFrame sender a => Sys2Proof.Machine.execAnswerFrame sender a s
  | .announceFrame sender a => Sys2Proof.Machine.execAnnounceFrame sender a s
  | .motionPage sender p => Sys2Proof.Machine.execMotionPage sender p s
  | .markerDeliveryMoment => Sys2Proof.Machine.execMarkerDeliveryMoment s
  | .frameReceived raw => Sys2Proof.Machine.execFrameReceived raw s
  | .frameError => Sys2Proof.Machine.execFrameError s
  | .resyncEnd => Sys2Proof.Machine.execResyncEnd s
  | .attemptStart => Sys2Proof.Machine.execAttemptStart s
  | .attemptEnd e => Sys2Proof.Machine.execAttemptEnd e s
  | .silenceTimeout node => Sys2Proof.Machine.execSilenceTimeout node s
  | .motionIntervalExpiry => Sys2Proof.Machine.execMotionIntervalExpiry s
  | .stateIntervalExpiry => Sys2Proof.Machine.execStateIntervalExpiry s
  | .driveTelegram => Sys2Proof.Machine.execDriveTelegram s
  | .callTimeout => Sys2Proof.Machine.execCallTimeout s
  | .lockTimerExpiry => Sys2Proof.Machine.execLockTimerExpiry s
  | .flashTimerExpiry => Sys2Proof.Machine.execFlashTimerExpiry s
  | .callButton => Sys2Proof.Machine.execCallButton s
  | .dispatchButton dest empty men material => Sys2Proof.Machine.execDispatchButton dest empty men material s
  | .releaseButton => Sys2Proof.Machine.execReleaseButton s
  | .relevelButton => Sys2Proof.Machine.execRelevelButton s
  | .gateContactChange closed locked => Sys2Proof.Machine.execGateContactChange closed locked s
  | .stopSwitchChange on => Sys2Proof.Machine.execStopSwitchChange on s
  | .shaftWorkSwitchChange on => Sys2Proof.Machine.execShaftWorkSwitchChange on s
  | .outOfServiceKeyChange on => Sys2Proof.Machine.execOutOfServiceKeyChange on s
  | .emergencyChange channel1 channel2 => Sys2Proof.Machine.execEmergencyChange channel1 channel2 s
  | .landingResetKey => Sys2Proof.Machine.execLandingResetKey s
  | .loopFault loop microamps => Sys2Proof.Machine.execLoopFault loop microamps s
  | .loopOk loop microamps => Sys2Proof.Machine.execLoopOk loop microamps s
  | .markerPass loop => Sys2Proof.Machine.execMarkerPass loop s
  | .passRearm loop => Sys2Proof.Machine.execPassRearm loop s
  | .skipPresentEdge input => Sys2Proof.Machine.execSkipPresentEdge input s
  | .skipPresentLost input => Sys2Proof.Machine.execSkipPresentLost input s
  | .chuteContactChange closed => Sys2Proof.Machine.execChuteContactChange closed s
  | .doorContactChange closed => Sys2Proof.Machine.execDoorContactChange closed s
  | .loadingCompleteInput active => Sys2Proof.Machine.execLoadingCompleteInput active s
  | .dumpTimerExpiry => Sys2Proof.Machine.execDumpTimerExpiry s
  | .skipPointResetKey => Sys2Proof.Machine.execSkipPointResetKey s
  | .lossOfSupply => Sys2Proof.Machine.execLossOfSupply s
  | .startBitReceived => Sys2Proof.Machine.execStartBitReceived s
  | .interframeSpaceEnd dominant => Sys2Proof.Machine.execInterframeSpaceEnd dominant s

end Sys2Proof.Machine
end

