-- ==== Sys2Proof/Machine/Pins.lean ====
section
/-! DEFINITION. The pins of each role (R207): what each output and lamp pin shows, what each input pin reads, and the
command that a qualified change of an input pin brings. State holds the outputs and the inputs by what they mean; the
pins are views of it. -/

namespace Sys2Proof.Machine

open Sys2Proof

/-! ## Outputs and lamps -/

/-- The output and lamp pins of the part: whether each output is energised, and what each lamp shows. -/
structure OutputPins where
  out1 : Bool
  out2 : Bool
  out3 : Bool
  out4 : Bool
  lp1 : Lamp
  lp2 : Lamp
  lp3 : Lamp
  lp4 : Lamp
  deriving DecidableEq, Repr

/-- No output energised and no lamp lit. -/
def OutputPins.none : OutputPins :=
  { out1 := false, out2 := false, out3 := false, out4 := false, lp1 := .off, lp2 := .off, lp3 := .off, lp4 := .off }

/-- The output and lamp pins of a role, from what the outputs show (R207). A pin that the role does not use is left off;
OUT2 of a winder is energised while TRIP is released (R118); LP4 is the fault indicator in every role. -/
def outputPinsOf (r : Role) (p : Pins) : OutputPins :=
  match r with
  | .winder => { OutputPins.none with out1 := p.permit, out2 := !p.trip, lp4 := p.lampFault }
  | .landing =>
    { OutputPins.none with
      out1 := p.gateRelease, lp1 := p.lampWait, lp2 := p.lampAccepted, lp3 := p.lampCageHere, lp4 := p.lampFault }
  | .loader => { OutputPins.none with out1 := p.loadPermit, lp4 := p.lampFault }
  | .tipper => { OutputPins.none with lp4 := p.lampFault }

/-- The node's output and lamp pins. Before an image is accepted no output is energised whatever the role (R193). -/
def outputPins (s : State) : OutputPins := outputPinsOf s.config.role s.pins

/-! ## Inputs -/

/-- What an input pin reads. -/
inductive InputFunction where
  | driveRunning | selectorNormal | selectorInspection | selectorSurvey | up | down
  | resume | resumeSame | resumeAhead | resumeBack | cancel | reset
  | gateClosed | gateLocked | call | dispatch | release | relevel | resetKey
  | stopSwitch | shaftWork | outOfService | emergency (channel : Which)
  | destination (bit : Nat) | classSelector (c : LoadClass)
  | skipPresent (input : Which) | chuteClosed | doorClosed | loadingComplete
  deriving DecidableEq, Repr

/-- IN1 to IN12 of a winder. -/
def winderInput : Nat → Option InputFunction
  | 1 => some .driveRunning
  | 2 => some .selectorNormal
  | 3 => some .selectorInspection
  | 4 => some .selectorSurvey
  | 5 => some .up
  | 6 => some .down
  | 7 => some .resume
  | 8 => some .resumeSame
  | 9 => some .resumeAhead
  | 10 => some .resumeBack
  | 11 => some .cancel
  | 12 => some .reset
  | _ => none

/-- IN1 to IN20 of a landing; IN13 to IN17 are the destination's level bits 4 to 0. -/
def landingInput : Nat → Option InputFunction
  | 1 => some .gateClosed
  | 2 => some .gateLocked
  | 3 => some .call
  | 4 => some .dispatch
  | 5 => some .release
  | 6 => some .relevel
  | 7 => some .resetKey
  | 8 => some .stopSwitch
  | 9 => some .shaftWork
  | 10 => some .outOfService
  | 11 => some (.emergency .first)
  | 12 => some (.emergency .second)
  | 13 => some (.destination 4)
  | 14 => some (.destination 3)
  | 15 => some (.destination 2)
  | 16 => some (.destination 1)
  | 17 => some (.destination 0)
  | 18 => some (.classSelector .empty)
  | 19 => some (.classSelector .men)
  | 20 => some (.classSelector .material)
  | _ => none

/-- IN1 to IN5 of a loader. -/
def loaderInput : Nat → Option InputFunction
  | 1 => some (.skipPresent .first)
  | 2 => some (.skipPresent .second)
  | 3 => some .chuteClosed
  | 4 => some .loadingComplete
  | 5 => some .resetKey
  | _ => none

/-- IN1 to IN5 of a tipper, which does not use IN4. -/
def tipperInput : Nat → Option InputFunction
  | 1 => some (.skipPresent .first)
  | 2 => some (.skipPresent .second)
  | 3 => some .doorClosed
  | 5 => some .resetKey
  | _ => none

/-- What IN1 to IN24 read in a role; a pin that the role does not use is not read (R207). -/
def inputFunction : Role → Nat → Option InputFunction
  | .winder => winderInput
  | .landing => landingInput
  | .loader => loaderInput
  | .tipper => tipperInput

/-- The 24 inputs of the part. -/
def inputPins : List Nat := (List.range 24).map (· + 1)

/-- The level of an input function in a role, from the levels of IN1 (bit 0) to IN24 (bit 23); off where no pin of the
role reads it. -/
def readInput (r : Role) (v : BitVec 24) (f : InputFunction) : Bool :=
  inputPins.any fun n => inputFunction r n == some f && v.getLsbD (n - 1)

/-- The destination selector read as a binary level (R139). -/
def readDestination (v : BitVec 24) : BitVec 5 :=
  BitVec.ofNat 5 (((List.range 5).map fun i => if readInput .landing v (.destination i) then 2 ^ i else 0).sum)

/-- The command that a qualified change of one input function brings, at the levels of all pins after it (R92, R139,
R164). A momentary input acts when it becomes active; a selector that is sampled by another input brings none. DOWN
becoming active in IDLE with the selector at SURVEY is a survey request (R57). A pin that is on is the named level, an
EMERGENCY channel's emergency level among them (DESIGN CHOICE, log 69). -/
def commandOf (r : Role) (s : State) (v : BitVec 24) (f : InputFunction) : Option Instr :=
  let at' : InputFunction → Bool := readInput r v
  let press (c : Instr) : Option Instr := if at' f then some c else none
  match f with
  | .driveRunning => some (.driveRunningChange (at' f))
  | .selectorNormal | .selectorInspection | .selectorSurvey =>
    some (.modeSelectorChange (at' .selectorNormal) (at' .selectorInspection) (at' .selectorSurvey))
  | .up => some (.inspectionDirection (at' .up) (at' .down))
  | .down =>
    if at' .down && s.w.panel.selector == .survey && s.w.seq.wind == .idle then some .surveyRequest
    else some (.inspectionDirection (at' .up) (at' .down))
  | .resume => press (.resumeRequest (at' .resumeSame) (at' .resumeAhead) (at' .resumeBack))
  | .resumeSame | .resumeAhead | .resumeBack => none
  | .cancel => press .cancel
  | .reset => press .faultReset
  | .gateClosed | .gateLocked => some (.gateContactChange (at' .gateClosed) (at' .gateLocked))
  | .call => press .callButton
  | .dispatch =>
    press
      (.dispatchButton (readDestination v) (at' (.classSelector .empty)) (at' (.classSelector .men))
        (at' (.classSelector .material)))
  | .release => press .releaseButton
  | .relevel => press .relevelButton
  | .resetKey => press (if r = .landing then .landingResetKey else .skipPointResetKey)
  | .stopSwitch => some (.stopSwitchChange (at' f))
  | .shaftWork => some (.shaftWorkSwitchChange (at' f))
  | .outOfService => some (.outOfServiceKeyChange (at' f))
  | .emergency _ => some (.emergencyChange (at' (.emergency .first)) (at' (.emergency .second)))
  | .destination _ | .classSelector _ => none
  | .skipPresent w => some (if at' f then .skipPresentEdge w else .skipPresentLost w)
  | .chuteClosed => some (.chuteContactChange (at' f))
  | .doorClosed => some (.doorContactChange (at' f))
  | .loadingComplete => some (.loadingCompleteInput (at' f))

/-- The command that a qualified change of an input pin brings to a node of a role, at the levels of all pins after it;
none where the role does not read the pin. -/
def pinCommand (r : Role) (s : State) (v : BitVec 24) (pin : Nat) : Option Instr :=
  (inputFunction r pin).bind (commandOf r s v)

end Sys2Proof.Machine
end

