-- ==== Sys2Proof/Safety.lean ====
section
/-! DEFINITION. What a run must keep, and what a command leaves alone: the terms in which the statements of
Certificates/Slice0/Obligations.lean are written. -/

namespace Sys2Proof.Machine

open Sys2Proof

/-! ## When a node acts -/

/-- The node is in Running with a role (R195). -/
def Runs (s : State) (r : Role) : Prop := s.step = .run ∧ hasRole s r = true

/-- The node is a winder that tracks: in the listen period or in Running (R194). -/
def Tracks (s : State) : Prop := (s.step = .listen ∨ s.step = .run) ∧ hasRole s .winder = true

/-- The node is a loader or tipper in Running. -/
def SkipRuns (s : State) : Prop := s.step = .run ∧ isSkipPoint s = true

/-- A winder in Running in a wind state. -/
def InWind (s : State) (w : WindState) : Prop := Runs s .winder ∧ s.w.seq.wind = w

/-- A line controller that is not DISABLED receives (R178). -/
def Receives (s : State) : Prop := s.line.mode ≠ .disabled

/-- A frame from another node of the shaft line reaches the peer table (R185, R186, R188). -/
def HeardFrom (s : State) (n : Nat) : Prop := Receives s ∧ WellFormed.nodeOk n = true ∧ n ≠ s.config.node

/-- The sender of a command that delivers a frame (R186). -/
def deliveredFrom : Instr → Option Nat
  | .alarmFrame n _ => some n
  | .markerFrame n _ _ => some n
  | .stateFrame n _ => some n
  | .callFrame n _ => some n
  | .answerFrame n _ => some n
  | .announceFrame n _ => some n
  | .motionPage n _ => some n
  | _ => none

/-- The command that delivers a frame's content at once; a MARKER waits, and a `heardOnly` frame has none (R186). -/
def deliveryOf (f : Frame) : Option Instr :=
  match f.payload with
  | .alarm mask => some (.alarmFrame f.sender mask)
  | .state r => some (.stateFrame f.sender r)
  | .call c => some (.callFrame f.sender c)
  | .answer a => some (.answerFrame f.sender a)
  | .announce a => some (.announceFrame f.sender a)
  | .page g => some (.motionPage f.sender g)
  | .marker _ _ => none
  | .heardOnly => none

/-! ## What a command leaves alone -/

/-- What the controller's reception and its attempt hold, apart from the transmit queue. -/
def SameReception (a b : LineController) : Prop :=
  b.mode = a.mode ∧ b.activity = a.activity ∧ b.interframe = a.interframe ∧ b.attempt = a.attempt
    ∧ b.heardOwn = a.heardOwn ∧ b.rxStart = a.rxStart ∧ b.rxMarkers = a.rxMarkers ∧ b.assembly = a.assembly

/-- The items of a node that no rule of a role writes. -/
def SameNode (s t : State) : Prop :=
  t.pending = s.pending ∧ t.clock = s.clock ∧ t.step = s.step ∧ t.loader = s.loader ∧ t.cfg = s.cfg
    ∧ t.listen = s.listen ∧ t.peers = s.peers ∧ SameReception s.line t.line

/-- A tracker without what may follow at a winder from the levels that an event leaves. -/
def calmTracker (t : Tracker) : Tracker :=
  { t with
    stall := none, stallRaised := false, expect := ⟨none, none⟩, learned := ⟨[], []⟩, validated := false
    cls := ⟨.unknown, t.cls.b⟩ }

/-- An envelope unit without what may follow: what is left are the ceiling, its terms and restrictions, the reference as
the latest sample set it, the phase and the zones. -/
def calmEnvelope (e : Envelope) : Envelope :=
  { PowerUp.envelope with
    zones := e.zones, applied := e.applied, ceiling := e.ceiling, terms := e.terms, phase := e.phase
    shownSpeed := e.shownSpeed, shownDir := e.shownDir }

/-- A sequencer without what may follow: what is left are the sequence counter, the overwind memories and the
restoration. -/
def calmSequencer (q : Sequencer) : Sequencer :=
  { PowerUp.sequencer with seqCounter := q.seqCounter, overwind := q.overwind, restoration := q.restoration }

/-- A winder without what may follow (R116, R117, R80): what is left are the track, the history and K, the ceiling,
the sources of the fault conditions, the panel and the timers of the sample and the drive port. -/
def calmWinder (w : Winder) : Winder :=
  { w with
    tr := calmTracker w.tr
    env := calmEnvelope w.env
    seq := calmSequencer w.seq
    flt := { w.flt with kinds := PowerUp.all ⟨false, .clear⟩, trip := false, tripCause := .powerUp }
    panel := { w.panel with heldDir := .none }
    drive := { w.drive with counter := 0, telegram := [] } }

/-- A landing without what may follow: the OUT OF SERVICE key, and the STATE it queues (R141, R148). -/
def calmLanding (l : Landing) : Landing := { l with state := .starting, release := false, stateTimer := none }

/-- A skip point without what may follow from its levels (R166 to R172), and the STATE it queues (R165). -/
def calmSkip (k : SkipPoint) : SkipPoint :=
  { k with
    state := .starting, posted := false, loadPermit := false, dumpTimer := none, doorHold := false
    call := none, callTimer := none, stateTimer := none }

/-- What a shaft point's following leaves alone whatever its role: the winder's items, and of the line controller
all but the periodic slot and what waits for it; the CALL place is said of each role by itself. -/
def FollowsPoint (s t : State) : Prop :=
  t.w = s.w ∧ t.line.pendingAnnounce = s.line.pendingAnnounce ∧ t.line.reportCounter = s.line.reportCounter
    ∧ t.line.sent = s.line.sent ∧ t.line.queue.alarm = s.line.queue.alarm
    ∧ t.line.queue.announce = s.line.queue.announce ∧ t.line.queue.announceFirst = s.line.queue.announceFirst
    ∧ t.line.queue.marker = s.line.queue.marker ∧ t.line.queue.answer = s.line.queue.answer

/-- What follows at a winder: reports and DROPPED answers are queued, and the items that `calmWinder` names stay. -/
def FollowsWinder (s t : State) : Prop :=
  t.l = s.l ∧ t.k = s.k ∧ calmWinder t.w = calmWinder s.w
    ∧ t.line.pendingAnnounce = s.line.pendingAnnounce ∧ t.line.queue.alarm = s.line.queue.alarm
    ∧ t.line.queue.announce = s.line.queue.announce ∧ t.line.queue.announceFirst = s.line.queue.announceFirst
    ∧ t.line.queue.marker = s.line.queue.marker ∧ t.line.queue.call = s.line.queue.call
    ∧ ∃ more, t.line.queue.answer = s.line.queue.answer ++ more

/-- What follows at a landing: with the OUT OF SERVICE key off, no more than a STATE. -/
def FollowsLanding (s t : State) : Prop :=
  FollowsPoint s t ∧ t.line.queue.call = s.line.queue.call ∧ t.k = s.k ∧ calmLanding t.l = calmLanding s.l
    ∧ (isOn s.l.outKey = false → t.l.state = s.l.state ∧ t.l.release = s.l.release)

/-- What follows at a skip point: the items that `calmSkip` names stay. -/
def FollowsSkip (s t : State) : Prop := FollowsPoint s t ∧ t.l = s.l ∧ calmSkip t.k = calmSkip s.k

/-- A state that differs from `s` only by what follows at the node's role from the levels that a command leaves
(R80, R106, R116 to R119, R148, R166 to R172), by the frames that this queues, and by the pins. A node in neither
the listen period nor Running has no more than its pins brought up to date. -/
def Follows (s t : State) : Prop :=
  SameNode s t
    ∧ (s.step ≠ .listen → s.step ≠ .run → t = showPins s)
    ∧ (hasRole s .winder = true → FollowsWinder s t)
    ∧ (hasRole s .landing = true → FollowsLanding s t)
    ∧ (hasRole s .winder = false → hasRole s .landing = false → FollowsSkip s t)

/-! ## Invariants -/

/-- The output pins show what the rules ask of them (R202, R207). -/
def PinsAgree (s : State) : Prop := s.pins = pinsOf s

/-- The drive reference never exceeds the ceiling, and is 0 and NONE while PERMIT is withdrawn (R46). -/
def ReferenceSafe (s : State) : Prop :=
  s.w.env.refSpeed ≤ s.w.env.ceiling
    ∧ (s.w.seq.permit = false → s.w.env.refSpeed = 0 ∧ s.w.env.refDir = .none)

/-- Whether PERMIT may be held in a wind state (R109). -/
def permitState : WindState → Bool
  | .preparing => true
  | .running => true
  | .stopping => true
  | .survey => true
  | .inspection => true
  | _ => false

/-- PERMIT is held only where R109 lets it rise or stay, and not while the configuration is being read. -/
def PermitPlaced (s : State) : Prop :=
  (s.w.seq.permit = true → permitState s.w.seq.wind = true) ∧ (s.step = .config → s.w.seq.permit = false)

/-- The MODE cap is in force, flat, at the inspection speed in INSPECTION and at the survey speed in SURVEY, and in no other
wind state (R35, R36); while the configuration is being read the wind state is STARTING (R202). -/
def ModeCapHeld (s : State) : Prop :=
  (s.w.seq.wind = .inspection → ∃ c, s.w.env.capMode = some c ∧ c.value = (wcfg s).inspection ∧ c.flat = true)
    ∧ (s.w.seq.wind = .survey → ∃ c, s.w.env.capMode = some c ∧ c.value = (wcfg s).survey ∧ c.flat = true)
    ∧ (s.w.seq.wind ≠ .inspection → s.w.seq.wind ≠ .survey → s.w.env.capMode = none)
    ∧ (s.step = .config → s.w.seq.wind = .starting)

/-- Every place of the transmit queue holds no more frames than R181 gives it, and the periodic slot a report's page
or a STATE. -/
def PlacesSound (s : State) : Prop :=
  (∀ p, s.line.queue.periodic = some p → kindCode p = 2 ∨ kindCode p = 3)
    ∧ s.line.queue.marker.length ≤ Config.markerDepth ∧ s.line.queue.call.length ≤ Config.callDepth
    ∧ s.line.queue.answer.length ≤ Config.answerDepth

/-- The nodes of a peer table stand in strictly rising order. -/
def nodesRise : List Peer → Bool
  | [] => true
  | p :: ps => ps.all (fun q => p.node < q.node) && nodesRise ps

/-- The peer table holds at most one entry for each node number of the line and none for the node's own; before an
image is accepted the line is not listened to and no peer is held (R178, R198). -/
def PeersSound (s : State) : Prop :=
  nodesRise s.peers = true
    ∧ (∀ p ∈ s.peers, WellFormed.nodeOk p.node = true ∧ p.node ≠ s.config.node)
    ∧ (s.step = .config → s.peers = [] ∧ s.line.mode = .disabled)

/-- The tracker's lists and the admitted restrictions stay within their capacities (R9, R12, R44, R67). -/
def TrackBounded (s : State) : Prop :=
  s.w.tr.history.length ≤ Config.historyDepth ∧ s.w.tr.window.length ≤ Config.windowDepth
    ∧ s.w.tr.learned.a.length ≤ Config.learnedDepth ∧ s.w.tr.learned.b.length ≤ Config.learnedDepth
    ∧ s.w.env.zones.length ≤ Config.zoneDepth

/-- K of each conveyance stays within the correction limit, and is 0 while the configuration is being read, when
the line is not listened to (R19, R178). -/
def CorrectionSafe (s : State) : Prop :=
  s.w.tr.k.a.natAbs ≤ (wcfg s).correctionLimit ∧ s.w.tr.k.b.natAbs ≤ (wcfg s).correctionLimit
    ∧ (s.step = .config → s.w.tr.k = ⟨0, 0⟩ ∧ s.line.mode = .disabled)

/-- The gate release is energised only in CUSTODY (R145). -/
def ReleaseInCustody (s : State) : Prop := s.l.release = true → s.l.state = .custody

/-- A MOVING record has been resumed at most three times (R124, R129). -/
def ResumesBounded (s : State) : Prop := ∀ r m, s.w.seq.record = some r → r.kind = .moving m → m.count ≤ Config.resumeLimit

/-- The call list holds at most 16 entries, the call in the slot of a start in PREPARING counted with them (R70,
R76). -/
def ListBounded (s : State) : Prop :=
  s.w.seq.list.length ≤ Config.listDepth
    ∧ (s.w.seq.wind = .preparing → inResumedLeg s = false →
        s.w.seq.list.length + s.w.seq.slot.length ≤ Config.listDepth)

/-- No two calls of a list are of the same kind, origin and destination. -/
def callsDiffer (l : List Call) : Prop := l.Pairwise fun c d => sameCall c d = false

/-- No two calls held are the same (R70, R75): neither of the list with the slot, nor of the list with a record's calls. What
keeps the two apart is that a record with calls stands in neither IDLE nor SURVEY, and beside a leg only in one begun by a
resume, whose slot holds the record's calls (R91, R124, R131). -/
def CallsDistinct (s : State) : Prop :=
  callsDiffer (s.w.seq.slot ++ s.w.seq.list)
    ∧ callsDiffer (recordCalls s.w.seq.record ++ s.w.seq.list)
    ∧ (recordCalls s.w.seq.record ≠ [] →
        s.w.seq.wind ≠ .idle ∧ s.w.seq.wind ≠ .survey
          ∧ (s.w.seq.wind = .preparing ∨ s.w.seq.wind = .running ∨ s.w.seq.wind = .stopping → inResumedLeg s = true))

/-- A depth or limit field of an image after its clamp (R192, R205). -/
def DepthClamped (x : Int) : Prop := -100000 ≤ x ∧ x ≤ 4000000

/-- A conveyance block within its ranges; the lower limit exceeds 4,000,000 only where R26 raises it to 1,000 below the
upper one (R26, R192, R205). -/
def ConveyanceClamped (c : ConvConfig) : Prop :=
  -2147483648 ≤ c.r ∧ c.r ≤ 2147483647 ∧ c.h ≤ 200000 ∧ DepthClamped c.z ∧ c.g ≤ 1000 ∧ DepthClamped c.upper
    ∧ c.upper + 1000 ≤ c.lower ∧ (c.lower ≤ 4000000 ∨ c.lower = c.upper + 1000)
    ∧ 1 ≤ c.layers.length ∧ c.layers.length ≤ 6
    ∧ ∀ l ∈ c.layers, 1 ≤ l.turns ∧ l.turns ≤ 255 ∧ 1000000 ≤ l.lam ∧ l.lam ≤ 40000000

/-- A winder's configured values within the ranges of R26 and of the other winder chapters, with the cross-field clamps
of R192 and the reactions that R115 allows. -/
def WinderClamped (w : WinderConfig) : Prop :=
  1 ≤ w.comps.a ∧ w.comps.a ≤ 4 ∧ 1 ≤ w.comps.b ∧ w.comps.b ≤ 4 ∧ w.comps.a ≠ w.comps.b
    ∧ (w.senseA = 1 ∨ w.senseA = -1) ∧ 4096 ≤ w.countsPerRev ∧ w.countsPerRev ≤ 65536
    ∧ ConveyanceClamped w.conv.a ∧ ConveyanceClamped w.conv.b
    ∧ w.classes.length = 5 ∧ (∀ k ∈ w.classes, k.e ≤ 6000 ∧ 100 ≤ k.top ∧ k.top ≤ 20000)
    ∧ 1000 ≤ w.maximum ∧ w.maximum ≤ 20000 ∧ 100 ≤ w.aAcc ∧ w.aAcc ≤ 1500 ∧ 100 ≤ w.aRet ∧ w.aRet ≤ 1500
    ∧ 100 ≤ w.creep ∧ w.creep ≤ 1000 ∧ w.creepDist ≤ 10000 ∧ 10 ≤ w.tol ∧ w.tol ≤ 200
    ∧ 3 ≤ w.tolPct ∧ w.tolPct ≤ 20 ∧ 100 ≤ w.tolFloor ∧ w.tolFloor ≤ 1000
    ∧ 100 ≤ w.relevelWindow ∧ w.relevelWindow ≤ 1000 ∧ 100 ≤ w.inspection ∧ w.inspection ≤ 2000
    ∧ 100 ≤ w.survey ∧ w.survey ≤ 2000 ∧ w.survey ≤ w.inspection
    ∧ 100 ≤ w.markerWindow ∧ w.markerWindow ≤ 2000
    ∧ 500 ≤ w.correctionLimit ∧ w.correctionLimit ≤ 5000 ∧ w.markerWindow ≤ w.correctionLimit
    ∧ 200 ≤ w.surveyWindow ∧ w.surveyWindow ≤ 3000 ∧ 50 ≤ w.surveyStartWindow ∧ w.surveyStartWindow ≤ 1000
    ∧ w.passWindow ≤ 100000 ∧ 100 ≤ w.passSpeed ∧ w.passSpeed ≤ 10000 ∧ w.creep ≤ w.passSpeed
    ∧ 1 ≤ w.startWindow ∧ w.startWindow ≤ 10
    ∧ ∀ k, w.reactions.get k ∈ allowedReactions k

/-- A served compartment of a shaft point within its ranges; a skip point has no landing and serves no men (R162, R192,
R205). -/
def ServedClamped (r : Role) (c : ServedConfig) : Prop :=
  1 ≤ c.comp ∧ c.comp ≤ 4 ∧ DepthClamped c.stop ∧ DepthClamped c.down ∧ DepthClamped c.up
    ∧ (r ≠ .landing → c.hasLanding = false ∧ c.servesMen = false)

/-- A shaft point's configured values within the ranges of its chapters, has landing yes in one compartment at most
(R137, R162, R192). -/
def PointClamped (r : Role) (p : PointConfig) : Prop :=
  p.level ≤ 31 ∧ ServedClamped r p.first
    ∧ (∀ q, p.second = some q →
        ServedClamped r q ∧ q.comp ≠ p.first.comp ∧ (p.first.hasLanding = true → q.hasLanding = false))
    ∧ 500 ≤ p.lockWindow ∧ p.lockWindow ≤ 5000 ∧ 500 ≤ p.crossWindow ∧ p.crossWindow ≤ 5000
    ∧ 20 ≤ p.positionTol ∧ p.positionTol ≤ 1000 ∧ 2 ≤ p.dumpWindow ∧ p.dumpWindow ≤ 60
    ∧ p.half ≤ 254 ∧ p.zoneSpeed ≤ 200 ∧ (r = .landing → 1 ≤ p.zoneSpeed)

/-- Where a survey failure of `s` leads (R65): with TRIP asserted to TRIPPED, else to STOPPING with PERMIT held as before while
drive RUNNING is active, else to IDLE with PERMIT withdrawn and the reference 0, from which the selector leads on to INSPECTION.
In each case no record is made of the survey. -/
def SurveyFailed (s t : State) : Prop :=
  (t.w.flt.trip = true → t.w.seq.wind = .tripped)
    ∧ (t.w.flt.trip = false → isOn t.w.panel.driveRunning = true →
        t.w.seq.wind = .stopping ∧ t.w.seq.leg = s.w.seq.leg ∧ t.w.seq.permit = s.w.seq.permit)
    ∧ (t.w.flt.trip = false → isOn t.w.panel.driveRunning = false →
        t.w.seq.permit = false ∧ t.w.env.refSpeed = 0
          ∧ (t.w.panel.selector ≠ .inspection → t.w.seq.wind = .idle)
          ∧ (t.w.panel.selector = .inspection → t.w.seq.wind = .inspection))
    ∧ (s.w.seq.leg = none → s.w.seq.custodian = none → s.w.seq.restoration = none → t.w.seq.record = s.w.seq.record)

/-- Every fault kind's state stands as its condition has it (R116): the conditions and states are those that an
update would give. -/
def FaultsSettled (s : State) : Prop := updateFaults s = s

/-- A winder outside INSPECTION on whose levels no rule acts as they stand: its fault kinds up to date with no stall
raised, TRIP released, the selector not at INSPECTION, no start condition lost in PREPARING (R98), no stop due in RUNNING
(R103, R117), no cause that aborts a survey (R64), and in IDLE no call that waits (R80). -/
def NothingDue (s : State) : Prop :=
  FaultsSettled s ∧ s.w.tr.stallRaised = false ∧ tripLevel s = false ∧ s.w.panel.selector ≠ .inspection
    ∧ s.w.seq.wind ≠ .inspection ∧ (s.w.seq.wind = .preparing → lostCause s = none)
    ∧ (s.w.seq.wind = .running → s.w.env.completion = true ∨ stopCauseOf s = none)
    ∧ (surveying s = true → surveyAborts s = false) ∧ (s.w.seq.wind = .idle → s.w.seq.list = [])

/-- The winder's latest report: the one that waits while a page is on the line, otherwise the slot's (R182, R183). -/
def latestReport (s : State) : Option Report :=
  if onLine .periodic s then
    match s.line.pendingPeriodic with
    | some (.report r) => some r
    | _ => none
  else s.line.sent.map (·.report)

/-- The latest STATE of a shaft point: the one waiting while another is on the line, otherwise the slot's (R182). -/
def latestState (s : State) : Option StateReport :=
  if onLine .periodic s then
    match s.line.pendingPeriodic with
    | some (.state r) => some r
    | _ => none
  else
    match s.line.queue.periodic with
    | some (.state r) => some r
    | _ => none

end Sys2Proof.Machine
end

