-- ==== Sys2Proof/Certificates/Slice0/Obligations.lean ====
section
/-! DEFINITION. The statements for the provers. The first part says what every command keeps, the second what the
functions of the manual compute, the third what each command does: its effect as an explicit state, and that the
next state is that one but for what follows at the node's role (`Follows`). -/

open Sys2Proof
open Sys2Proof.Machine

/-! ## The machine -/

/-- The command at the front of the queue is run with the queue's rest. -/
def Obligations.StepRunsTheFrontCommand : Prop :=
  ∀ (c : Instr) (rest : List Instr) (s : State),
    s.pending = c :: rest → step s = exec c { s with pending := rest }

/-- The model's choice (log 2): on an empty queue a node without supply idles; any other puts the first timed command
that is due in its queue, and otherwise a millisecond passes. -/
def Obligations.EmptyQueueLetsTimePass : Prop :=
  ∀ s : State, s.pending = [] →
    ∃ t, step s = .next t
      ∧ (s.step = .off → t = s)
      ∧ (s.step ≠ .off → ∀ c, dueCommand s = some c → t = { s with pending := [c] })
      ∧ (s.step ≠ .off → dueCommand s = none →
          t.clock = s.clock + 1 ∧ t.pending = [] ∧ t.step = s.step ∧ t.cfg = s.cfg ∧ t.line = s.line ∧ t.pins = s.pins
            ∧ t.w.seq.wind = s.w.seq.wind ∧ t.l.state = s.l.state ∧ t.k.state = s.k.state)

/-! ## What every step keeps -/

/-- After every step the output pins are those of the rules. At a winder that tracks the TRIP pin shows TRIP exactly while the
power-up trip stands, the wind state is FAULTED, a kind under TRIP_LATCHED is ACTIVE or HELD, or one under TRIP_AUTO is ACTIVE,
and the PERMIT pin shows the sequencer's PERMIT while none of these holds. In every other start-up step TRIP is asserted and
the three other outputs stand at their rest levels. The gate release pin is the landing's release in Running, and LOAD PERMIT
the loader's. PERMIT is not energised while TRIP is asserted, and the gate release is energised in CUSTODY alone. -/
def Obligations.PinsAndReleaseKept : Prop :=
  ∀ s t : State, step s = .next t →
    (PinsAgree s →
       let react (k : FaultKind) : Reaction := (wcfg t).reactions.get k
       let asserted : Prop :=
         t.w.flt.powerUpTrip = true ∨ t.w.seq.wind = .faulted
           ∨ ∃ k, react k = .tripLatched ∧ faultState t k ≠ .clear ∨ react k = .tripAuto ∧ faultState t k = .active
       PinsAgree t ∧ (t.pins.permit = true → t.pins.trip = false)
         ∧ (Tracks t →
             (t.pins.trip = true ↔ asserted) ∧ (t.pins.permit = true ↔ t.w.seq.permit = true ∧ ¬asserted))
         ∧ (t.step ≠ .listen → t.step ≠ .run →
             t.pins.trip = true ∧ t.pins.permit = false ∧ t.pins.gateRelease = false ∧ t.pins.loadPermit = false)
         ∧ (t.cfg.isSome = true →
             (t.pins.gateRelease = true ↔ Runs t .landing ∧ t.l.release = true)
               ∧ (t.pins.loadPermit = true ↔ Runs t .loader ∧ t.k.loadPermit = true)))
      ∧ (ReleaseInCustody s → ReleaseInCustody t)

/-- Every step keeps the reference within the ceiling and at 0 and NONE while PERMIT is withdrawn, and keeps PERMIT to
PREPARING, RUNNING, STOPPING, SURVEY and INSPECTION. Every step keeps the MODE cap in force, flat, at the inspection speed in
INSPECTION and at the survey speed in SURVEY, and in no other wind state (`ModeCapHeld`). -/
def Obligations.ReferenceAndPermitSafeKept : Prop :=
  ∀ s t : State, step s = .next t →
    (ReferenceSafe s → ReferenceSafe t)
      ∧ (PermitPlaced s → PermitPlaced t)
      ∧ (ModeCapHeld s → ModeCapHeld t)

/-- At every step the places of the transmit queue keep within their capacities and the slot to its kinds, and the peer
table keeps at most one entry per node number and none for the node's own. -/
def Obligations.PlacesAndPeersSoundKept : Prop :=
  ∀ s t : State, step s = .next t →
    (PlacesSound s → PlacesSound t)
      ∧ (PeersSound s → PeersSound t)

/-- Every step keeps the history, the speed window, the learned tables and the admitted restrictions within their
capacities, and K of each conveyance within the correction limit. -/
def Obligations.TrackKept : Prop :=
  ∀ s t : State, step s = .next t →
    (TrackBounded s → TrackBounded t)
      ∧ (CorrectionSafe s → CorrectionSafe t)

/-- Every step keeps a record's resume count within 3, the call list, with the call in the slot of a start in PREPARING,
within 16 entries, and no two calls held of the same kind, origin and destination: in the list, in the slot beside it, and in a
record beside it (`CallsDistinct`). -/
def Obligations.RecordAndListSoundKept : Prop :=
  ∀ s t : State, step s = .next t →
    (ResumesBounded s → ResumesBounded t)
      ∧ (ListBounded s → ListBounded t)
      ∧ (CallsDistinct s → CallsDistinct t)

/-- The state after reset meets every invariant above. -/
def Obligations.ResetMeetsInvariants : Prop :=
  PinsAgree State.reset ∧ ReferenceSafe State.reset ∧ PermitPlaced State.reset ∧ PlacesSound State.reset
    ∧ PeersSound State.reset ∧ TrackBounded State.reset ∧ CorrectionSafe State.reset ∧ ReleaseInCustody State.reset
    ∧ ResumesBounded State.reset ∧ ListBounded State.reset ∧ CallsDistinct State.reset ∧ ModeCapHeld State.reset

/-! ## What holds after every command -/

/-- After every command at a winder in the listen period or Running, each fault kind's condition is the one its
sources give, and the kind is ACTIVE exactly while it is present: OVERSPEED, MARKER_MISSED, START_FAIL and LATE_RESTRICTION
while raised for the latest sample, OVERWIND and OVERRUN as that sample found them, ENCODER by a negative count, by a stall or
by an illegal transition raised for that sample, TRACKING raised for it or by a landing's TRACK_DOUBT for a compartment of the
winder, PEER_SILENT by a SILENT point whose STATE has been heard, GATE_BREACH by a landing's flag, ALARM by the alarm set, and
DUPLICATE_NODE in FAULTED. TRIP is asserted exactly by the power-up trip, by FAULTED, by a TRIP_LATCHED kind that is ACTIVE or
HELD, and by a TRIP_AUTO kind that is ACTIVE. At a winder in Running, TRIP asserted then means TRIPPED; STARTING and FAULTED are
the states that it does not leave. -/
def Obligations.FaultKindsAndTripFollow : Prop :=
  ∀ (c : Instr) (s t : State), exec c s = .next t →
    (Tracks t →
      let flt := t.w.flt
      let member (p : Peer) : Prop := p ∈ t.peers ∧ ∃ v g, geometryOf p ((wcfg t).comps.get v) = some g
      let reports (f : LandingReport → Prop) : Prop := ∃ p r, member p ∧ stateOf p = some (.landing r) ∧ f r
      let doubts (r : LandingReport) : Prop :=
        ∃ v x, x.comp = (wcfg t).comps.get v ∧ x.doubt = true
          ∧ (x = r.first ∨ r.first.comp ≠ x.comp ∧ r.second = some x)
      let present (k : FaultKind) : Prop :=
        match k with
        | .overspeed => flt.atSample.overspeed = true
        | .overwind => flt.overwind = true
        | .overrun => flt.overrun = true
        | .encoder => t.w.tr.negative = true ∨ t.w.tr.stallRaised = true ∨ flt.atSample.encoder = true
        | .tracking => flt.atSample.tracking = true ∨ reports doubts
        | .markerMissed => flt.atSample.markerMissed = true
        | .peerSilent => ∃ p r, member p ∧ p.heard = .silent ∧ p.conflict = false ∧ stateOf p = some r
        | .gateBreach => reports fun r => r.breach = true
        | .alarm => flt.alarmSet ≠ []
        | .startFail => flt.atSample.startFail = true
        | .lateRestriction => flt.atSample.lateRestriction = true
        | .duplicateNode => flt.duplicate = true
      let react (k : FaultKind) : Reaction := (wcfg t).reactions.get k
      (∀ k : FaultKind,
          ((flt.kinds.get k).present = true ↔ present k) ∧ ((flt.kinds.get k).state = .active ↔ present k))
        ∧ (tripLevel t = true ↔ flt.powerUpTrip = true ∨ t.w.seq.wind = .faulted
            ∨ ∃ k, react k = .tripLatched ∧ (flt.kinds.get k).state ≠ .clear
                ∨ react k = .tripAuto ∧ (flt.kinds.get k).state = .active))
    ∧ (Runs t .winder → tripLevel t = true →
        t.w.seq.wind = .tripped ∨ t.w.seq.wind = .starting ∨ t.w.seq.wind = .faulted)

/-- At a position sample the event-like conditions raised since the latest one become those present, and no other command
changes them. A kind whose condition is not present is HELD under TRIP_LATCHED where it was ACTIVE, and where it was HELD until a
fault reset; under any other reaction it is CLEAR; one that was CLEAR with the fault states up to date is CLEAR still, ENCODER
apart, which a stall makes present and withdrawn PERMIT takes back within one command (log 9). The TRIP output is asserted
exactly while TRIP is. The trip cause is taken as TRIP asserts, of the kinds that assert it then the first of R115's table, and
is kept from then on, through the release and until TRIP asserts anew. ENCODER's reaction is TRIP_LATCHED in every accepted
image (R115), which the clauses on TRIP ask of it no further than that it is not TRIP_AUTO. -/
def Obligations.FaultStatesAndTripCauseFollow : Prop :=
  ∀ (c : Instr) (s t : State), exec c s = .next t → Tracks s → Tracks t →
    let sampled : Prop := c = .positionSample ∧ s.w.sampleTimer.isSome = true
    let react (k : FaultKind) : Reaction := (wcfg t).reactions.get k
    let before (k : FaultKind) : FaultState := (s.w.flt.kinds.get k).state
    let after (k : FaultKind) : FaultState := (t.w.flt.kinds.get k).state
    let asserts (k : FaultKind) : Prop :=
      react k = .tripLatched ∧ after k ≠ .clear ∨ react k = .tripAuto ∧ after k = .active
    (sampled → t.w.flt.atSample = s.w.flt.raised)
    ∧ (¬sampled → t.w.flt.atSample = s.w.flt.atSample)
    ∧ (∀ k, (t.w.flt.kinds.get k).present = false →
        (react k = .tripLatched →
          (before k = .active → after k = .held)
          ∧ (before k = .held → c ≠ .faultReset → after k = .held)
          ∧ (before k = .clear → FaultsSettled s → k ≠ .encoder → after k = .clear))
        ∧ (react k ≠ .tripLatched → before k ≠ .held → after k = .clear))
    ∧ (react .encoder ≠ .tripAuto →
        (t.w.flt.trip = true ↔ tripLevel t = true)
        ∧ (s.w.flt.trip = false → t.w.flt.trip = true → c ≠ .faultReset → ∀ k, asserts k →
            (∀ j, asserts j → k.code ≤ j.code) → t.w.flt.tripCause = .fault k)
        ∧ (s.w.flt.trip = true → t.w.flt.trip = true → c ≠ .faultReset ∨ FaultsSettled s →
            t.w.flt.tripCause = s.w.flt.tripCause)
        ∧ (t.w.flt.trip = false → t.w.flt.tripCause = s.w.flt.tripCause))

/-- Whatever the command, PREPARING is entered with PERMIT and a leg, and with a CALL or PAIR leg only where R94's conditions
hold and the start lockout is clear: TRIP released, no kind HELD, none ACTIVE under STOP, the track validated, the selector at
NORMAL, every enclosure closed, no hold and no ALARM. A CALL leg has its call alone in the slot, no custodian, the landing of its
level neither SILENT nor out of service, and a stop further off than the tolerance, towards which A goes; where a custodian was
named in IDLE, it is a position sample or that custodian's RELEASE with its gate locked that has ended its custody. A PAIR leg has
a loader's and a tipper's READY, of two compartments, neither point SILENT, each skip bound for a stop. -/
def Obligations.LegStartsWhereConditionsHold : Prop :=
  ∀ (i : Instr) (s t : State), exec i s = .next t → s.w.seq.wind ≠ .preparing → InWind t .preparing →
    ∃ g, t.w.seq.leg = some g ∧ t.w.seq.permit = true
      ∧ (g.kind ≠ .resume →
          tripLevel t = false ∧ (∀ k, faultState t k ≠ .held)
            ∧ (∀ k, faultState t k = .active → (wcfg t).reactions.get k ≠ .stop)
            ∧ t.w.tr.validated = true ∧ t.w.panel.selector = .normal ∧ t.w.flt.alarmSet = [] ∧ t.w.seq.lockout = false
            ∧ ∀ q ∈ t.peers, ∀ v h, geometryOf q ((wcfg t).comps.get v) = some h →
                ∃ r, stateOf q = some r ∧ showsHold r = false ∧ enclosureClosed r = true)
      ∧ (g.kind = .call →
          (wcfg t).kind = .service ∧ t.w.seq.custodian = none
            ∧ (∃ c p d x, t.w.seq.slot = [c] ∧ landingAt t (wcfg t).comps.a (c.dest.getD c.level) = some p
                ∧ statusOf p ≠ .silent ∧ (∀ r, stateOf p = some (.landing r) → r.outOfService = false)
                ∧ stopDepth t .a p.node = some d ∧ t.w.tr.x.a = some x ∧ (wcfg t).tol < (x - d).natAbs
                ∧ g.target = ⟨some d, none⟩ ∧ g.dir = if x < d then .down else .up)
            ∧ (∀ n, s.w.seq.wind = .idle → s.w.seq.custodian = some n →
                i = .positionSample
                  ∨ ∃ l c, (i = .stateFrame n (.landing l)
                        ∨ ∃ r f, i = .frameReceived r ∧ decodeFrame r = some f ∧ f.sender = n
                            ∧ f.payload = .state (.landing l))
                      ∧ landingComp l (wcfg s).comps.a = some c ∧ c.custody = .release ∧ l.gate = .closedLocked))
      ∧ (g.kind = .pair →
          (wcfg t).kind = .rock
            ∧ ∃ a b, t.w.seq.slot = [a, b] ∧ a.kind = .ready ∧ b.kind = .ready ∧ a.comp ≠ b.comp
                ∧ (peerOf t a.origin).role = .point .loader ∧ (peerOf t b.origin).role = .point .tipper
                ∧ statusOf (peerOf t a.origin) ≠ .silent ∧ statusOf (peerOf t b.origin) ≠ .silent
                ∧ g.target.a.isSome = true ∧ g.target.b.isSome = true)

/-- A command that changes the wind state or the custodian leaves a report of them as the winder's latest. That a
command which changes them more than once reports each stage is the model's choice (log 4). A command that changes a shaft
point's STATE content, target present apart, leaves the new content as the latest STATE; that it is one STATE for a command, at
its end, is the model's choice too (log 4). -/
def Obligations.ChangesAreReported : Prop :=
  (∀ (c : Instr) (s t : State), exec c s = .next t → s.step = .run → Runs t .winder →
    (t.w.seq.wind ≠ s.w.seq.wind ∨ t.w.seq.custodian ≠ s.w.seq.custodian) →
    ∃ r, latestReport t = some r ∧ r.motion.wind = t.w.seq.wind ∧ r.status.wind = t.w.seq.wind
      ∧ r.status.custodian = t.w.seq.custodian.getD 0 ∧ r.motion.number = r.status.number
      ∧ t.line.reportCounter = (r.motion.number + 1) % 256)
  ∧ (∀ (c : Instr) (s t : State), exec c s = .next t → s.step = .run → t.step = .run → hasRole t .winder = false →
      withoutTarget (ownState s) ≠ withoutTarget (ownState t) → latestState t = some (ownState t))

/-- After every command at a skip point in Running, LOAD PERMIT is on exactly while the state is LOADING, the winder
shows IDLE and no hold flag is set; at a landing in Running the OUT OF SERVICE key leaves none of the states it takes, and
its lamps show what R159 lays down: WAIT the call record and the giving up of custody, ACCEPTED the record and its service
mark, CAGE HERE custody and the cage parked here, FAULT the flags, a loop's fault, a gate state UNKNOWN and the flash. An
input of the gate not yet qualified reads as off by the model's choice (log 13). -/
def Obligations.ShaftPointLevelsHold : Prop :=
  ∀ (c : Instr) (s t : State), exec c s = .next t → t.step = .run →
    (isSkipPoint t = true →
      t.k.loadPermit = (t.k.state == .loading && windShown t .idle && !anyFlag t.k))
    ∧ (hasRole t .landing = true →
        (isOn t.l.outKey = true → t.l.state ≠ .noCage ∧ t.l.state ≠ .cageHere ∧ t.l.state ≠ .claiming)
        ∧ (let status (x : CallStatus) : Prop := ∃ r, t.l.call = some r ∧ r.status = x
           let served' : Prop := ∃ r, t.l.call = some r ∧ r.mark = .inService
           let ending : Prop := t.l.state = .locking ∨ t.l.state = .releasing
           let faulty : Prop :=
             t.l.breach = true ∨ t.l.lockFail = true ∨ t.l.doubt.a = true ∨ t.l.doubt.b = true
               ∨ gateOfInputs t = .unknown
               ∨ ∃ w q, served (pcfg t) w = some q ∧ q.fitted = true ∧ (t.l.loops.at w).faulty = true
           (status .waiting → t.pins.lampWait = .steady)
           ∧ (¬status .waiting → ending → t.pins.lampWait = .flashing)
           ∧ (¬status .waiting → ¬ending → t.pins.lampWait = .off)
           ∧ (status .accepted → served' → t.pins.lampAccepted = .flashing)
           ∧ (status .accepted → ¬served' → t.pins.lampAccepted = .steady)
           ∧ (¬status .accepted → t.pins.lampAccepted = .off)
           ∧ (t.l.state = .custody → t.pins.lampCageHere = .flashing)
           ∧ (t.l.state ≠ .custody → t.pins.lampCageHere = if parkedHere t then .steady else .off)
           ∧ (faulty → t.pins.lampFault = .steady)
           ∧ (¬faulty → t.pins.lampFault = if t.l.flash.isSome then .flashing else .off)))

/-! ## Functions of the manual -/

/-- The curve function V: the floor integer square root, clamped at 20,000. -/
def Obligations.CurveIsTheFloorRoot : Prop :=
  ∀ (d : Int) (vEnd a : Nat), ∃ r : Nat,
    r * r ≤ vEnd * vEnd + 2 * a * d.toNat ∧ vEnd * vEnd + 2 * a * d.toNat < (r + 1) * (r + 1)
      ∧ curve d vEnd a = min 20000 r

/-- The paid-out length of u counts: the counts are laid into the layers in order, the last layer taking all that are
left, and each layer's product is truncated on its own. A winder's accepted layer tables have 1 to 6 layers of 1 to 255
turns and 1,000,000 to 40,000,000 µm per turn, and no product of 2^32 counts leaves 64 bits. -/
def Obligations.PaidLengthSumsTheLayers : Prop :=
  (∀ (s : State) (c : Conv) (u : Int), (conveyance s c).layers ≠ [] →
    ∃ cs : List Nat,
      cs.length = (conveyance s c).layers.length ∧ cs.sum = u.toNat
        ∧ (∀ k l, k + 1 < cs.length → (conveyance s c).layers[k]? = some l →
            cs[k]? = some (min (u.toNat - (cs.take k).sum) (l.turns * (wcfg s).countsPerRev)))
        ∧ paidLength s c u =
            (List.zipWith (fun n (l : Layer) => n * l.lam / (wcfg s).countsPerRev) cs (conveyance s c).layers).sum / 1000)
  ∧ ∀ (m : List Byte) (n : NodeConfig), acceptImage m = some n → n.role = .winder →
      ∀ c, 1 ≤ (n.w.conv.get c).layers.length ∧ (n.w.conv.get c).layers.length ≤ 6
        ∧ ∀ l ∈ (n.w.conv.get c).layers, 1 ≤ l.turns ∧ l.turns ≤ 255 ∧ 1000000 ≤ l.lam ∧ l.lam ≤ 40000000
            ∧ ∀ k, k ≤ 2 ^ 32 → k * l.lam < 2 ^ 64

/-- In a governing state the ceiling of a sample exceeds neither the winder maximum nor any cap then in force: a MODE or
RESUMED cap at its value, and the SLOW cap of that sample at the value that R36's curve gives it. A SLOW cap that a lasting kind
has raised keeps its value and raising point through the samples of every wind state while such a kind is ACTIVE under SLOW, and
is lifted at the first at which none is, unless an event-like kind keeps it; one that an event-like kind has raised or kept stays
while the envelope governs. Where none stays, a kind ACTIVE under SLOW raises one anew, of the inspection speed, with the drum
count and the greater speed of the sample, at its value where no origin exists. That a cap raised outside the governing states
is not one that stays is how the model reads R35 and R117 together (log 71); that a lasting kind's cap keeps its raising point
where an event-like kind becomes ACTIVE at the very sample at which the last lasting one ceases is its choice (log 77). With the
MODE cap as every step keeps it (`ModeCapHeld`), the ceiling exceeds neither the inspection speed in INSPECTION nor the survey
speed in SURVEY. -/
def Obligations.GoverningCeilingIsBounded : Prop :=
  ∀ s : State,
    let after : State := evaluateEnvelope s
    let slow (k : FaultKind) : Prop := faultState s k = .active ∧ (wcfg s).reactions.get k = .slow
    let lasting : Prop := slow .peerSilent ∨ landingDoubt s = true ∧ slow .tracking
    let event : Prop :=
      s.w.flt.atSample.tracking = true ∧ slow .tracking ∨ s.w.flt.atSample.markerMissed = true ∧ slow .markerMissed
    let stays (c : Cap) : Prop :=
      c.kept = true ∧ governs s = true ∨ c.kept = false ∧ (lasting ∨ governs s = true ∧ event)
    (governs s = true →
      after.w.env.ceiling ≤ (wcfg s).maximum
        ∧ (∀ c : Cap, s.w.env.capMode = some c → c.flat = true → after.w.env.ceiling ≤ c.value)
        ∧ (∀ c : Cap, s.w.env.capResumed = some c → c.flat = true → after.w.env.ceiling ≤ c.value)
        ∧ (∀ c : Cap,
            s.w.env.capMode = some c ∨ s.w.env.capResumed = some c ∨ after.w.env.capSlow = some c →
            after.w.env.ceiling ≤ capValue s c)
        ∧ (ModeCapHeld s →
            (s.w.seq.wind = .inspection → after.w.env.ceiling ≤ (wcfg s).inspection)
              ∧ (s.w.seq.wind = .survey → after.w.env.ceiling ≤ (wcfg s).survey)))
    ∧ (∀ c : Cap, s.w.env.capSlow = some c →
        ((c.kept = true ∧ governs s = true ∨ c.kept = false ∧ lasting) →
          ∃ d, after.w.env.capSlow = some d ∧ d.value = c.value ∧ d.n = c.n ∧ d.v0 = c.v0 ∧ d.flat = c.flat)
        ∧ (c.kept = false → ¬lasting → ¬event → after.w.env.capSlow = none)
        ∧ (c.kept = false → governs s = true → event →
            ∃ d, after.w.env.capSlow = some d ∧ d.value = c.value ∧ d.n = c.n ∧ d.v0 = c.v0 ∧ d.kept = true))
    ∧ ((∀ c : Cap, s.w.env.capSlow = some c → ¬stays c) →
        (lasting ∨ event →
          ∃ d, after.w.env.capSlow = some d ∧ d.value = (wcfg s).inspection ∧ d.n = s.w.tr.nSample
            ∧ d.v0 = max s.w.tr.v.a.natAbs s.w.tr.v.b.natAbs ∧ (d.flat = true ↔ s.w.tr.origin = none))
        ∧ (¬lasting → ¬event → after.w.env.capSlow = none))

/-- The ceiling of a sample in a governing state is the least of the terms present, each spelled out by its rule: the top term
(R31), the caps in force (R35, R36), the acceleration term (R32), the stop term of each target (R33, R61), the end term (R34), the
value of each slow zone (R38), the passing term (R39) and the halt term (R40). In any other state it is the run-down term alone
(R41). The latches of the acceleration start, the halt and the run-down, the phase (R42) and the reference by the wind state (R46)
are those of the same sample: in PREPARING the ceiling or creep speed, in RUNNING, STOPPING and SURVEY the ceiling, in INSPECTION
the ceiling in the direction held, and otherwise 0. A position sample shows what this evaluation gives of the X, v, class and
validated flag that the sample has formed, and of that sample's fault states: the event-like conditions raised since the latest
sample, with TRACKING by a landing's TRACK_DOUBT and PEER_SILENT by a SILENT point. The SLOW cap so formed stays in force through
the sample in RUNNING, STOPPING and SURVEY. That a conveyance whose load class is UNKNOWN takes the least top speed of its kind
is R13's. Zones are restrictions one by one, as the model reads the manual (log 17), and the STOPPING that follows a survey
failure has no stop target by its choice (log 55). -/
def Obligations.CeilingIsTheLeastTerm : Prop :=
  (∀ s : State,
     let w := wcfg s
     let after : State := evaluateEnvelope s
     let wind := s.w.seq.wind
     let c : Nat := after.w.env.ceiling
     let leg : Prop := wind = .preparing ∨ wind = .running ∨ wind = .stopping ∨ wind = .survey
     let dirA : Dir :=
       if wind = .inspection then
         (if isOn s.w.panel.up then (if isOn s.w.panel.down then .none else .up)
          else if isOn s.w.panel.down then .down else .none)
       else (s.w.seq.leg.map (·.dir)).getD .down
     let dir (v : Conv) : Dir :=
       match v with
       | .a => dirA
       | .b => dirA.opposite
     let root (n r : Nat) : Prop := r * r ≤ n ∧ n < (r + 1) * (r + 1)
     let greater : Nat := max s.w.tr.v.a.natAbs s.w.tr.v.b.natAbs
     let gain (n : Count) : Int :=
       let paid (o : Origin) (m : Count) : Int :=
         paidLength s .a ((conveyance s .a).r + senseOf s .a * (m - o.n0).toInt)
       match s.w.tr.origin with
       | some o => paid o s.w.tr.nSample - paid o n
       | none =>
         (s.w.tr.nSample - n).toInt.natAbs * (conveyance s .a).layers.foldl (fun m l => max m l.lam) 0 / w.countsPerRev
           / 1000
     let made (n : Count) : Nat := (if s.w.tr.origin = none then gain n else gain n * dirA.sign).toNat
     let top (v : Conv) : Nat :=
       let of (k : LoadClass) : Nat := (w.classes.getD (classCode k) ⟨0, 0⟩).top
       let kinds : List LoadClass :=
         match w.kind, v with
         | .rock, _ => [.empty, .full]
         | .service, .a => [.empty, .men, .material]
         | .service, .b => [.fixed]
       if s.w.tr.cls.get v = .unknown then (kinds.map of).foldl min 20000 else of (s.w.tr.cls.get v)
     let cap (x : Cap) (r : Nat) : Prop :=
       (x.flat = true ∨ x.v0 ≤ x.value) ∧ r = x.value
         ∨ x.flat = false ∧ x.value < x.v0
             ∧ ∃ y, root (x.v0 * x.v0 - 2 * w.aRet * made x.n) y ∧ r = max x.value y
     let inForce (x : Cap) : Prop :=
       s.w.env.capMode = some x ∨ s.w.env.capResumed = some x ∨ after.w.env.capSlow = some x
     let target (v : Conv) (d : Int) : Prop :=
       wind ≠ .survey ∧ leg ∧ (∃ g, s.w.seq.leg = some g ∧ g.target.get v = some d)
         ∨ wind = .survey ∧ v = .a ∧ ∃ p, s.w.seq.survey.bottom = some p
             ∧ (∀ e, learnedOf s .a p.node = some e → d = e.stop)
             ∧ (learnedOf s .a p.node = none → d = p.stop + w.surveyWindow)
     let stop (r : Nat) : Prop :=
       ∃ v d x, target v d ∧ s.w.tr.x.get v = some x
         ∧ (let far : Int := (d - x) * (dir v).sign
            (w.creepDist < far → r = curve (far - w.creepDist) w.creep w.aRet)
            ∧ (far ≤ w.creepDist → -(w.tol : Int) ≤ far → r = w.creep)
            ∧ (far ≤ w.creepDist → far < -(w.tol : Int) → r = 0))
     let limit (r : Nat) : Prop :=
       s.w.tr.validated = true ∧ ∃ v x, s.w.tr.x.get v = some x
         ∧ (dir v = .down ∧ r = curve ((conveyance s v).lower - x) 0 w.aRet
           ∨ dir v = .up ∧ r = curve (x - (conveyance s v).upper) 0 w.aRet)
     let zone (z : Zone) (r : Nat) : Prop :=
       z ∈ s.w.env.zones ∧ ∃ v x, convOf s z.comp = some v ∧ s.w.tr.x.get v = some x
         ∧ (dir v = .down ∧ x < z.upper ∧ r = curve (z.upper - x) z.speed w.aRet
           ∨ dir v = .up ∧ z.lower < x ∧ r = curve (x - z.lower) z.speed w.aRet
           ∨ dir v = .down ∧ z.upper ≤ x ∧ x ≤ z.lower ∧ r = z.speed
           ∨ dir v = .up ∧ z.upper ≤ x ∧ x ≤ z.lower ∧ r = z.speed)
     let passing (r : Nat) : Prop :=
       0 < w.passWindow ∧ ∃ xa xb, s.w.tr.x.a = some xa ∧ s.w.tr.x.b = some xb
         ∧ (let gap : Int := (xa - xb).natAbs
            let nearing : Prop := dirA = .down ∧ xa < xb ∨ dirA = .up ∧ xb < xa
            dirA ≠ .none
              ∧ (nearing ∧ r = curve (Int.fdiv (gap - w.passWindow) 2) w.passSpeed w.aRet
                ∨ ¬nearing ∧ gap < w.passWindow ∧ r = w.passSpeed))
     let applies (x : Restriction) : Prop :=
       match x with
       | .cap => ∃ y, inForce y
       | .zone n comp => ∃ z r, zone z r ∧ z.node = n ∧ z.comp = comp
       | .passing => ∃ r, passing r
     let acc (r : Nat) : Prop :=
       leg ∧ ∃ l, after.w.env.acc = some l ∧ r = curve (made l.n) l.v0 w.aAcc
     let halt (r : Nat) : Prop :=
       wind = .stopping ∧ ∃ l, after.w.env.halt = some l ∧ root (l.v0 * l.v0 - 2 * w.aRet * made l.n) r
     let term (r : Nat) : Prop :=
       r = min w.maximum (min (top .a) (top .b)) ∨ (∃ x, inForce x ∧ cap x r) ∨ acc r ∨ stop r ∨ limit r
         ∨ (∃ z, zone z r) ∨ passing r ∨ halt r
     (governs s = true →
        (∀ r, term r → c ≤ r) ∧ term c
        ∧ (leg →
            let again : Prop := wind ≠ .stopping ∧ ∃ x ∈ s.w.env.applied, ¬applies x
            (s.w.env.acc = none → after.w.env.acc = some { n := s.w.tr.nSample, v0 := w.creep })
            ∧ (∀ l, s.w.env.acc = some l →
                (again → after.w.env.acc = some { n := s.w.tr.nSample, v0 := s.w.env.ceiling })
                ∧ (¬again → after.w.env.acc = some l)))
        ∧ (wind = .stopping →
            after.w.env.halt =
              some (s.w.env.halt.getD { n := s.w.tr.nSample, v0 := min s.w.tr.v.a.natAbs s.w.env.ceiling })
            ∧ after.w.env.phase = .stopping)
        ∧ (leg → wind ≠ .stopping →
            (c ≤ w.creep → after.w.env.phase = .creep)
            ∧ (w.creep < c → stop c → after.w.env.phase = .retard)
            ∧ (w.creep < c → ¬stop c → acc c → after.w.env.phase = .accel)
            ∧ (w.creep < c → ¬stop c → ¬acc c → after.w.env.phase = .full)))
     ∧ (governs s = false →
         let l : Latch := s.w.env.runDown.getD { n := s.w.tr.nSample, v0 := greater }
         after.w.env.runDown = some l ∧ root (l.v0 * l.v0 - 2 * w.aRet * (gain l.n).natAbs) c)
     ∧ (¬leg → after.w.env.phase = .none)
     ∧ after.w.env.shownSpeed = after.w.env.refSpeed ∧ after.w.env.shownDir = after.w.env.refDir
     ∧ (s.w.seq.permit = false ∨ after.w.env.completion = true → after.w.env.refSpeed = 0 ∧ after.w.env.refDir = .none)
     ∧ (s.w.seq.permit = true → after.w.env.completion = false →
         (wind = .preparing → after.w.env.refSpeed = min c w.creep ∧ after.w.env.refDir = dirA)
         ∧ (wind = .running ∨ wind = .stopping ∨ wind = .survey → after.w.env.refSpeed = c ∧ after.w.env.refDir = dirA)
         ∧ (wind = .inspection → dirA ≠ .none → after.w.env.refSpeed = c ∧ after.w.env.refDir = dirA)
         ∧ (wind = .inspection → dirA = .none → after.w.env.refSpeed = 0 ∧ after.w.env.refDir = .none)))
  ∧ (∀ s : State, Tracks s → s.w.sampleTimer.isSome = true →
       ∃ m t, exec .positionSample s = .next t
         ∧ t.w.env.ceiling = (evaluateEnvelope m).w.env.ceiling ∧ t.w.env.phase = (evaluateEnvelope m).w.env.phase
         ∧ t.w.env.shownSpeed = (evaluateEnvelope m).w.env.shownSpeed
         ∧ t.w.env.shownDir = (evaluateEnvelope m).w.env.shownDir
         ∧ m.cfg = s.cfg ∧ m.peers = s.peers ∧ m.w.env = s.w.env ∧ m.w.seq = s.w.seq ∧ m.w.panel = s.w.panel
         ∧ m.w.tr.x = t.w.tr.x ∧ m.w.tr.v = t.w.tr.v ∧ m.w.tr.nSample = t.w.tr.nSample
         ∧ m.w.tr.origin = s.w.tr.origin ∧ m.w.tr.cls = s.w.tr.cls ∧ m.w.tr.learned = s.w.tr.learned
         ∧ m.w.tr.validated =
             (s.w.tr.validated && !t.w.tr.negative && !s.w.tr.stallRaised && !s.w.tr.stallSeen
               && !s.w.flt.raised.encoder)
         ∧ m.w.flt.atSample = s.w.flt.raised
         ∧ (faultState m .tracking = .active ↔ s.w.flt.raised.tracking = true ∨ landingDoubt s = true)
         ∧ (faultState m .markerMissed = .active ↔ s.w.flt.raised.markerMissed = true)
         ∧ (faultState m .peerSilent = .active ↔ memberSilent s = true)
         ∧ (s.w.seq.wind = .running ∨ s.w.seq.wind = .stopping ∨ s.w.seq.wind = .survey → t.w.seq.wind = s.w.seq.wind →
             t.w.env.capSlow = (evaluateEnvelope m).w.env.capSlow))

/-- An accepted image gives the configuration that its bytes say (R205), the most significant byte of a field first. The
identity fields are taken as they stand. A field whose bytes all hold 255 takes its listed default; any other is taken as stored
where it lies within its range and as the nearer end of the range where it does not; the cross-field clamps of R192 follow. A
reaction byte above 4 gives the kind's default, and one of 0 to 4 the reaction of that code where R115 allows it and otherwise
the nearest allowed one in the order TL, TA, STOP, SLOW, REPORT, of two as near the stronger; DUPLICATE_NODE has no byte. A
landing has has-landing in one compartment at most, and a skip point in none. Every field lies in its chapter's range
(`WinderClamped`, `PointClamped`). Of byte 19, which chooses one of two values, no more is said than of those two and of the
unset value (log 6). -/
def Obligations.AcceptedImageIsClamped : Prop :=
  ∀ (m : List Byte) (c : NodeConfig), acceptImage m = some c →
    let byte (i : Nat) : Nat := (m.getD i 0).toNat
    let bit (i n : Nat) : Bool := (m.getD i 0).getLsbD n
    let word (i : Nat) : Nat := byte i * 256 + byte (i + 1)
    let long (i : Nat) : Nat := word i * 65536 + word (i + 2)
    let signed (i : Nat) : Int := if long i < 2147483648 then long i else (long i : Int) - 4294967296
    let held (lo hi raw v : Nat) : Prop := (lo ≤ raw → raw ≤ hi → v = raw) ∧ (raw < lo → v = lo) ∧ (hi < raw → v = hi)
    let depth (i : Nat) (v : Int) : Prop :=
      (-100000 ≤ signed i → signed i ≤ 4000000 → v = signed i) ∧ (signed i < -100000 → v = -100000)
        ∧ (4000000 < signed i → v = 4000000)
    let orElse (unset lo hi default raw v : Nat) : Prop := (raw = unset → v = default) ∧ (raw ≠ unset → held lo hi raw v)
    let byteField (lo hi default i v : Nat) : Prop := orElse 255 lo hi default (byte i) v
    let wordField (lo hi default i v : Nat) : Prop := orElse 65535 lo hi default (word i) v
    let rank (r : Reaction) : Nat :=
      match r with
      | .tripLatched => 0 | .tripAuto => 1 | .stop => 2 | .slow => 3 | .report => 4
    let allowed (k : FaultKind) : List Reaction :=
      match k with
      | .overspeed => [.tripLatched, .tripAuto]
      | .overrun | .gateBreach => [.tripAuto, .stop]
      | .tracking => [.tripLatched, .stop, .slow]
      | .markerMissed | .peerSilent => [.stop, .slow, .report]
      | .startFail => [.stop, .report]
      | .lateRestriction => [.stop]
      | .overwind | .encoder | .alarm | .duplicateNode => [.tripLatched]
    let default (k : FaultKind) : Reaction :=
      match k with
      | .overspeed | .overwind | .encoder | .alarm | .duplicateNode => .tripLatched
      | .overrun | .tracking | .gateBreach | .startFail | .lateRestriction => .stop
      | .markerMissed | .peerSilent => .slow
    let far (r : Reaction) (raw : Nat) : Nat := ((rank r : Int) - raw).natAbs
    let block (i : Nat) (v : ConvConfig) : Prop :=
      v.r = signed i ∧ held 0 200000 (long (i + 4)) v.h ∧ depth (i + 8) v.z ∧ held 0 1000 (word (i + 12)) v.g
        ∧ depth (i + 14) v.upper ∧ (∃ b, depth (i + 18) b ∧ v.lower = max b (v.upper + 1000))
        ∧ held 1 6 (byte (i + 22)) v.layers.length
        ∧ ∀ n l, v.layers[n]? = some l →
            held 1 255 (byte (i + 23 + 5 * n)) l.turns ∧ held 1000000 40000000 (long (i + 24 + 5 * n)) l.lam
    let compartment (i : Nat) (q : ServedConfig) : Prop :=
      q.fitted = bit i 0 ∧ depth (i + 1) q.stop ∧ depth (i + 5) q.down ∧ depth (i + 9) q.up
        ∧ (c.role = .landing → q.servesMen = bit i 1) ∧ (c.role ≠ .landing → q.servesMen = false ∧ q.hasLanding = false)
    let w := c.w
    let p := c.p
    word 0 = 12608 ∧ c.node = byte 3 ∧ 1 ≤ c.node ∧ c.node ≤ 40 ∧ c.fast = (byte 4 == 1)
      ∧ (byte 2 = 0 ∧ c.role = .winder ∨ byte 2 = 1 ∧ c.role = .landing ∨ byte 2 = 2 ∧ c.role = .loader
          ∨ byte 2 = 3 ∧ c.role = .tipper)
      ∧ byteField 5 50 10 5 c.stateInterval
      ∧ (∃ t, wordField 30 600 30 6 t ∧ c.silenceTimeout = max t (2 * c.stateInterval + 1))
      ∧ byteField 10 254 50 8 c.callTimeout
      ∧ (c.role = .winder →
          WinderClamped w
            ∧ w.kind = (if byte 16 = 0 then .service else .rock) ∧ w.comps = ⟨byte 17, byte 18⟩
            ∧ (byte 19 = 0 ∨ byte 19 = 255 → w.senseA = 1) ∧ (byte 19 = 1 → w.senseA = -1)
            ∧ held 4096 65536 (long 20) w.countsPerRev ∧ block 24 w.conv.a ∧ block 77 w.conv.b
            ∧ (∀ n k, w.classes[n]? = some k →
                held 0 6000 (word (130 + 4 * n)) k.e ∧ held 100 20000 (word (132 + 4 * n)) k.top)
            ∧ held 1000 20000 (word 150) w.maximum ∧ held 100 1500 (word 152) w.aAcc ∧ held 100 1500 (word 154) w.aRet
            ∧ wordField 100 1000 400 156 w.creep ∧ wordField 0 10000 2000 158 w.creepDist
            ∧ byteField 10 200 50 160 w.tol ∧ byteField 3 20 8 161 w.tolPct ∧ wordField 100 1000 300 162 w.tolFloor
            ∧ wordField 100 1000 500 164 w.relevelWindow ∧ wordField 100 2000 1000 166 w.inspection
            ∧ (∃ v, wordField 100 2000 800 168 v ∧ w.survey = min v w.inspection)
            ∧ wordField 100 2000 500 170 w.markerWindow
            ∧ (∃ v, wordField 500 5000 2000 172 v ∧ w.correctionLimit = max v w.markerWindow)
            ∧ wordField 200 3000 1000 174 w.surveyWindow ∧ wordField 50 1000 300 176 w.surveyStartWindow
            ∧ orElse 4294967295 0 100000 0 (long 178) w.passWindow
            ∧ (∃ v, wordField 100 10000 3000 182 v ∧ w.passSpeed = max v w.creep)
            ∧ byteField 1 10 3 184 w.startWindow
            ∧ w.reactions.duplicateNode = .tripLatched
            ∧ ∀ k, k ≠ .duplicateNode →
                let raw := byte (185 + k.code)
                let r := w.reactions.get k
                (4 < raw → r = default k)
                ∧ (raw ≤ 4 →
                    r ∈ allowed k ∧ (∀ a ∈ allowed k, rank a = raw → r = a)
                      ∧ ∀ a ∈ allowed k, far r raw < far a raw ∨ far r raw = far a raw ∧ rank r ≤ rank a))
      ∧ (c.role ≠ .winder →
          PointClamped c.role p
            ∧ p.first.comp = byte 17 ∧ compartment 32 p.first
            ∧ (c.role = .landing → p.level = byte 16 ∧ p.first.hasLanding = bit 32 2)
            ∧ (byte 18 = 0 → p.second = none)
            ∧ (byte 18 ≠ 0 → ∃ q, p.second = some q ∧ q.comp = byte 18 ∧ compartment 48 q
                ∧ (c.role = .landing → q.hasLanding = (bit 48 2 && !bit 32 2)))
            ∧ (byte 19 = 0 ∨ byte 19 = 255 → p.shaftAlarm = false) ∧ (byte 19 = 1 → p.shaftAlarm = true)
            ∧ wordField 500 5000 2000 20 p.lockWindow ∧ wordField 500 5000 2000 22 p.crossWindow
            ∧ wordField 20 1000 200 24 p.positionTol ∧ byteField 2 60 20 26 p.dumpWindow
            ∧ (c.role = .landing → byteField 0 254 0 27 p.half ∧ byteField 1 200 20 28 p.zoneSpeed))

/-- Every frame that the layouts can carry is read back from its bits as it was. -/
def Obligations.DecodeOfEncodeIsTheFrame : Prop :=
  ∀ f : Frame, WellFormed.frame f = true → decodeFrame (encodeFrame f) = some f

/-! ## Power-up and the configuration -/

/-- A power-up gives every item its power-up value with the configuration read started; a loss of supply leaves every
output and lamp pin without energy, TRIP asserted among them, and the line controller DISABLED with nothing to send, so
that the end of an attempt which ran before it changes nothing. Items whose power-up value no rule gives hold the model's
(log 24), the queue of waiting commands is the model's own (log 37), and what a loss of supply leaves in the transmit
queue, the receive buffer and the other items is the model's choice (log 36). -/
def Obligations.PowerUpAndLossOfSupply : Prop :=
  ∀ s : State,
    (∃ t, exec .powerUp s = .next t ∧ t = { State.reset with pending := s.pending }
      ∧ t.step = .config ∧ t.loader = { reading := true, retry := none, failures := 0, badSums := 0 } ∧ t.cfg = none
      ∧ t.line.mode = .disabled ∧ t.line.activity = .resync ∧ t.peers = [] ∧ t.w.tr.n = 0 ∧ t.w.tr.origin = none
      ∧ t.w.tr.validated = false ∧ t.w.seq.wind = .starting ∧ t.w.seq.permit = false ∧ t.w.seq.list = []
      ∧ t.w.seq.record = none ∧ t.w.flt.powerUpTrip = true ∧ t.l.state = .starting ∧ t.k.state = .starting
      ∧ t.pins = { permit := false, trip := true, gateRelease := false, loadPermit := false, lampWait := .off
                   lampAccepted := .off, lampCageHere := .off, lampFault := .off }
      ∧ outputPins t = OutputPins.none)
    ∧ ∃ t, exec .lossOfSupply s = .next t
        ∧ t = { s with step := .off, line := t.line, pins := t.pins }
        ∧ t.line =
            { s.line with
              mode := .disabled, attempt := none, heardOwn := false, interframe := false, queue := PowerUp.queue
              pendingPeriodic := none, pendingAnnounce := ⟨none, none⟩, rxStart := none, rxMarkers := [] }
        ∧ t.pins.trip = true ∧ t.pins.permit = false ∧ t.pins.gateRelease = false ∧ t.pins.loadPermit = false
        ∧ outputPins t = OutputPins.none ∧ ∀ e, exec (.attemptEnd e) t = .next t

/-- The pins of R207. Of the outputs a winder energises OUT1 as PERMIT and OUT2 while TRIP is released, a landing OUT1 as the
gate release with the lamps WAIT, ACCEPTED and CAGE HERE on LP1 to LP3, a loader OUT1 as LOAD PERMIT; LP4 is the fault
indicator in every role, and a pin that the role does not use stays off. A qualified change of an input pin brings the command
of its role, with the levels that the pins then have; a pin that a role does not use, and a selector that another input
samples, bring none. A pin that is on is the named level by the model's choice (log 69). -/
def Obligations.PinsOfTheRoles : Prop :=
  (∀ s : State, s.cfg.isSome = true →
     (hasRole s .winder = true →
       outputPins s =
         { OutputPins.none with out1 := s.pins.permit, out2 := !s.pins.trip, lp4 := s.pins.lampFault })
     ∧ (hasRole s .landing = true →
         outputPins s =
           { OutputPins.none with
             out1 := s.pins.gateRelease, lp1 := s.pins.lampWait, lp2 := s.pins.lampAccepted
             lp3 := s.pins.lampCageHere, lp4 := s.pins.lampFault })
     ∧ (hasRole s .loader = true →
         outputPins s = { OutputPins.none with out1 := s.pins.loadPermit, lp4 := s.pins.lampFault })
     ∧ (hasRole s .tipper = true → outputPins s = { OutputPins.none with lp4 := s.pins.lampFault }))
  ∧ ∀ (s : State) (v : BitVec 24),
      let on (pin : Nat) : Bool := v.getLsbD (pin - 1)
      let press (pin : Nat) (c : Instr) : Option Instr := if on pin then some c else none
      (let w := pinCommand .winder s v
       w 1 = some (.driveRunningChange (on 1))
         ∧ (∀ n, n = 2 ∨ n = 3 ∨ n = 4 → w n = some (.modeSelectorChange (on 2) (on 3) (on 4)))
         ∧ w 5 = some (.inspectionDirection (on 5) (on 6))
         ∧ w 6 =
             some (if on 6 = true ∧ s.w.panel.selector = .survey ∧ s.w.seq.wind = .idle then .surveyRequest
               else .inspectionDirection (on 5) (on 6))
         ∧ w 7 = press 7 (.resumeRequest (on 8) (on 9) (on 10)) ∧ w 8 = none ∧ w 9 = none ∧ w 10 = none
         ∧ w 11 = press 11 .cancel ∧ w 12 = press 12 .faultReset ∧ ∀ n, n = 0 ∨ 12 < n → w n = none)
      ∧ (let l := pinCommand .landing s v
         (∀ n, n = 1 ∨ n = 2 → l n = some (.gateContactChange (on 1) (on 2)))
           ∧ l 3 = press 3 .callButton
           ∧ (∃ dest : BitVec 5, (∀ i, i < 5 → dest.getLsbD i = on (17 - i))
               ∧ l 4 = press 4 (.dispatchButton dest (on 18) (on 19) (on 20)))
           ∧ l 5 = press 5 .releaseButton ∧ l 6 = press 6 .relevelButton ∧ l 7 = press 7 .landingResetKey
           ∧ l 8 = some (.stopSwitchChange (on 8)) ∧ l 9 = some (.shaftWorkSwitchChange (on 9))
           ∧ l 10 = some (.outOfServiceKeyChange (on 10))
           ∧ (∀ n, n = 11 ∨ n = 12 → l n = some (.emergencyChange (on 11) (on 12)))
           ∧ ∀ n, n = 0 ∨ 12 < n → l n = none)
      ∧ (∀ r, r = .loader ∨ r = .tipper →
           let k := pinCommand r s v
           k 1 = some (if on 1 then .skipPresentEdge .first else .skipPresentLost .first)
             ∧ k 2 = some (if on 2 then .skipPresentEdge .second else .skipPresentLost .second)
             ∧ (r = .loader → k 3 = some (.chuteContactChange (on 3)) ∧ k 4 = some (.loadingCompleteInput (on 4)))
             ∧ (r = .tipper → k 3 = some (.doorContactChange (on 3)) ∧ k 4 = none)
             ∧ k 5 = press 5 .skipPointResetKey ∧ ∀ n, n = 0 ∨ 5 < n → k n = none)

/-- The configuration read: a failed read is started again 10 ms later, up to the third, which leads to FAULTED; a
sum that does not match has the image read once more, and the second leads to FAULTED. An image of another length is a
failed read by the model's choice (log 5).
An image whose sum matches: an identity field out of range leads to FAULTED; otherwise its values are taken, the
line controller enters RECEIVE_ONLY, the listen timer starts for one silence timeout, and a winder's position sample
timer starts. That a service winder's B is FIXED from acceptance on, and that the drive port's timer stops at the other
roles, is read from the manual by inference (log 7, log 34). -/
def Obligations.ConfigurationReadEnds : Prop :=
  (∀ s : State, s.step = .config →
      let rest : Pins := PowerUp.pins
      let lit : Pins := { PowerUp.pins with lampFault := .steady }
      let failed : State := { s with loader.failures := s.loader.failures + 1 }
      let bad : State := { s with loader.badSums := s.loader.badSums + 1 }
      let faulted (u : State) : State :=
        { u with step := .faulted, w.seq.wind := .faulted, loader.reading := false, loader.retry := none, pins := lit }
      (s.loader.reading = true → ∀ r : ReadEnd, (r = .failed ∨ ∃ m, r = .completed m ∧ m.length ≠ 208) →
        (s.loader.failures < 2 → exec (.configReadEnd r) s =
            .next { failed with loader.reading := false, loader.retry := some 10, pins := rest })
          ∧ (2 ≤ s.loader.failures → exec (.configReadEnd r) s = .next (faulted failed)))
      ∧ (s.loader.reading = true → ∀ m, m.length = 208 → sumMatches m = false →
          (s.loader.badSums = 0 → exec (.configReadEnd (.completed m)) s = .next { bad with pins := rest })
            ∧ (1 ≤ s.loader.badSums → exec (.configReadEnd (.completed m)) s = .next (faulted bad)))
      ∧ (s.loader.retry.isSome = true →
          exec .configReadRetry s = .next { s with loader.reading := true, loader.retry := none, pins := rest }))
  ∧ (∀ (s : State) (m : List Byte), s.step = .config → s.loader.reading = true → m.length = 208 → sumMatches m = true →
      (identityOk m = false → exec (.configReadEnd (.completed m)) s =
          .next
            { s with
              step := .faulted, w.seq.wind := .faulted, loader.reading := false, loader.retry := none
              pins := { PowerUp.pins with lampFault := .steady } })
      ∧ (identityOk m = true → ∃ c t, acceptImage m = some c ∧ exec (.configReadEnd (.completed m)) s = .next t
          ∧ t.w.sampleTimer = (if c.role = .winder then some 2 else s.w.sampleTimer)
          ∧ Follows
              { s with
                cfg := some c, step := .listen, listen := some (100 * c.silenceTimeout), loader.reading := false
                line.mode := .receiveOnly, line.activity := .resync, w := winderAccepts c s.w }
              t))

/-- The end of the listen period: Running, the line controller ACTIVE, ANNOUNCE frames with the start mark, and the
state of the role with its first periodic frame. In the landing's state and a skip point's hold flags an input not yet
qualified, the OUT OF SERVICE key, an EMERGENCY channel or the chute or door contact, reads as off by the model's choice
(log 13). A landing whose EMERGENCY input is active queues one ALARM with its scope's mask. -/
def Obligations.ListenEndEntersTheRole : Prop :=
  ∀ s : State, s.step = .listen → s.listen.isSome = true → s.cfg.isSome = true → s.line.attempt = none →
    s.line.queue.announce = ⟨none, none⟩ →
    ∃ t, exec .listenTimerExpiry s = .next t
      ∧ t.step = .run ∧ t.listen = none ∧ t.line.mode = .active ∧ t.cfg = s.cfg ∧ t.peers = s.peers
      ∧ t.clock = s.clock ∧ t.pending = s.pending
      ∧ t.line.queue.announce = ⟨ownAnnounce s .first true, ownAnnounce s .second true⟩
      ∧ (hasRole s .winder = true →
          t.w.seq.wind = .tripped ∧ t.w.seq.permit = false ∧ t.l = s.l ∧ t.k = s.k
            ∧ calmWinder t.w = calmWinder s.w
            ∧ ∃ r, latestReport t = some r ∧ r.motion.wind = .tripped)
      ∧ (hasRole s .landing = true →
          t.w = s.w ∧ t.k = s.k ∧ latestState t = some (ownState t)
            ∧ t.l.state = (if isOn s.l.outKey then .outOfService
                else if isNamed s && parkedHere s then .custody else cageState s)
            ∧ t.l.release = (t.l.state == .custody)
            ∧ t.line.queue.alarm =
                (if emergency s && s.line.queue.alarm.isNone then some (alarmMask (pcfg s)) else s.line.queue.alarm)
            ∧ calmLanding t.l = calmLanding s.l)
      ∧ (isSkipPoint s = true →
          t.w = s.w ∧ t.l = s.l ∧ latestState t = some (ownState t) ∧ t.k.state = .noSkip
            ∧ t.k.chuteHold = (s.k.chuteHold || (hasRole s .loader && !isShut s))
            ∧ t.k.doorHold = (s.k.doorHold || (hasRole s .tipper && !isShut s)))

/-! ## The position sample and the encoder -/

/-- A position sample reads N and forms u, P, S, X, v and the direction of each conveyance from it and from the values
before the sample, appends to the history, takes the load classes that it used, and starts its timer again. v is 0 while
the speed window holds fewer than 10 counts; then it is fifty times the paid-out length gained since the count of 10
samples earlier, and without an origin R10's quotient of the counts gained and the largest λ of the layer table.
OVERSPEED is raised exactly where a conveyance is faster than the supervision ceiling of that sample's ceiling,
OVERWIND is present exactly while a conveyance lies beyond its limits, and OVERRUN exactly while a target conveyance lies more
than the landing tolerance past its stop, the target and its stop those of the leg in PREPARING, RUNNING and STOPPING, and A and
R61's in SURVEY; that the STOPPING after a survey failure has none is the model's choice (log 55). A count u below 0 makes
ENCODER present at that sample, and this, an illegal transition raised for it, or a stall now or since the latest sample clears
the validated flag; with none of these it stays, but for a survey that the sample fails. A conveyance's overwind memory is UPPER or LOWER at
every sample beyond that limit, which is the model's reading (log 42), NONE once it stands 1,000 mm within the limit that it
remembers, and else stays. The order of the parts of a sample beyond R2's is read from the manual by inference (log 10). -/
def Obligations.PositionSampleTracks : Prop :=
  (∀ s : State, Tracks s → s.w.sampleTimer.isSome = true →
     ∃ t, exec .positionSample s = .next t
       ∧ t.w.tr.n = s.w.tr.n ∧ t.w.tr.nSample = s.w.tr.n ∧ t.w.sampleTimer = some 2
       ∧ t.w.tr.origin = s.w.tr.origin ∧ t.w.tr.k = s.w.tr.k
       ∧ t.w.tr.clsSample = s.w.tr.cls
       ∧ (∀ c,
           let counts (o : Origin) (n : Count) : Int := (conveyance s c).r + senseOf s c * (n - o.n0).toInt
           t.w.tr.u.get c = (s.w.tr.origin.map fun o => counts o s.w.tr.n)
             ∧ t.w.tr.paid.get c = (s.w.tr.origin.map fun o => paidLength s c (counts o s.w.tr.n))
             ∧ t.w.tr.stretch.get c =
                 (s.w.tr.origin.map fun o =>
                   stretchOf s c (s.w.tr.cls.get c) (paidLength s c (counts o s.w.tr.n)))
             ∧ t.w.tr.x.get c =
                 (s.w.tr.origin.map fun o =>
                   let p := paidLength s c (counts o s.w.tr.n)
                   (conveyance s c).z + o.q.get c + p + stretchOf s c (s.w.tr.cls.get c) p + s.w.tr.k.get c)
             ∧ (s.w.tr.window.length < 10 → t.w.tr.v.get c = 0)
             ∧ (∀ past o, s.w.tr.window[9]? = some past → s.w.tr.origin = some o →
                 t.w.tr.v.get c =
                   ((paidLength s c (counts o s.w.tr.n) : Int) - paidLength s c (counts o past)) * 50)
             ∧ (∀ past (l : Layer), s.w.tr.window[9]? = some past → s.w.tr.origin = none →
                 l ∈ (conveyance s c).layers → (∀ m ∈ (conveyance s c).layers, m.lam ≤ l.lam) →
                 t.w.tr.v.get c =
                   Int.tdiv (Int.tdiv (senseOf s c * (s.w.tr.n - past).toInt * l.lam) (wcfg s).countsPerRev) 20)
             ∧ t.w.tr.dir.get c =
                 (if 0 < t.w.tr.v.get c then .down else if t.w.tr.v.get c < 0 then .up else s.w.tr.dir.get c))
       ∧ (∃ e, t.w.tr.history = (e :: s.w.tr.history).take 128 ∧ e.dir = t.w.tr.dir
           ∧ e.x = s.w.tr.origin.map fun _ =>
               ⟨(t.w.tr.x.a.getD 0) - s.w.tr.k.a, (t.w.tr.x.b.getD 0) - s.w.tr.k.b⟩)
       ∧ t.w.tr.window = (s.w.tr.n :: s.w.tr.window).take 10
       ∧ SameNode s t ∧ t.l = s.l ∧ t.k = s.k ∧ t.w.panel.selector = s.w.panel.selector
       ∧ t.w.drive.timer = s.w.drive.timer ∧ t.w.flt.alarmSet = s.w.flt.alarmSet)
  ∧ (∀ s : State, Tracks s → s.w.sampleTimer.isSome = true →
       ∃ t, exec .positionSample s = .next t
         ∧ (t.w.flt.raised.overspeed = true ↔
             t.w.env.ceiling + max (t.w.env.ceiling * (wcfg s).tolPct / 100) (wcfg s).tolFloor
               < max t.w.tr.v.a.natAbs t.w.tr.v.b.natAbs)
         ∧ (t.w.flt.overwind = true ↔
             ∃ c x, t.w.tr.x.get c = some x ∧ (x < (conveyance s c).upper ∨ (conveyance s c).lower < x))
         ∧ (let stop (c : Conv) (d : Int) : Prop :=
              (s.w.seq.wind = .preparing ∨ s.w.seq.wind = .running ∨ s.w.seq.wind = .stopping)
                  ∧ (∃ g, s.w.seq.leg = some g ∧ g.target.get c = some d)
                ∨ s.w.seq.wind = .survey ∧ c = .a ∧ ∃ p, s.w.seq.survey.bottom = some p
                    ∧ ((∃ e, learnedOf s .a p.node = some e ∧ d = e.stop)
                      ∨ learnedOf s .a p.node = none ∧ d = p.stop + (wcfg s).surveyWindow)
            let past : Prop :=
              ∃ c d x, stop c d ∧ t.w.tr.x.get c = some x
                ∧ (d - x) * (dirFor c ((s.w.seq.leg.map (·.dir)).getD .down)).sign < -((wcfg s).tol : Int)
            (t.w.flt.overrun = true ↔ past) ∧ (faultState t .overrun = .active ↔ past))
         ∧ (let below : Prop := ∃ c u, t.w.tr.u.get c = some u ∧ u < 0
            let arises : Prop :=
              below ∨ s.w.tr.stallRaised = true ∨ s.w.tr.stallSeen = true ∨ s.w.flt.raised.encoder = true
            (t.w.tr.negative = true ↔ below)
              ∧ (faultState t .encoder = .active ↔
                  below ∨ t.w.tr.stallRaised = true ∨ s.w.flt.raised.encoder = true)
              ∧ (arises → t.w.tr.validated = false)
              ∧ (¬arises → surveying s = false → t.w.tr.validated = s.w.tr.validated))
         ∧ ∀ c,
             let before := s.w.seq.overwind.get c
             let memory := t.w.seq.overwind.get c
             (t.w.tr.x.get c = none → memory = before)
             ∧ ∀ x, t.w.tr.x.get c = some x →
                 let cleared : Prop :=
                   before = .upper ∧ (conveyance s c).upper + 1000 ≤ x
                     ∨ before = .lower ∧ x ≤ (conveyance s c).lower - 1000
                 (x < (conveyance s c).upper → memory = .upper)
                 ∧ ((conveyance s c).upper ≤ x → (conveyance s c).lower < x → memory = .lower)
                 ∧ ((conveyance s c).upper ≤ x → x ≤ (conveyance s c).lower →
                     (cleared → memory = .none) ∧ (¬cleared → memory = before)))

/-- A sample's velocity is 0 while the speed window holds fewer than 10 counts, and otherwise, while an origin exists,
fifty times what the paid-out length has gained since the count of 10 samples earlier; without one it is R10's quotient
of the counts gained and the largest λ of the layer table. The direction is DOWN, UP or
unchanged as the velocity is positive, negative or 0, it is NONE from power-up, and the history records it. -/
def Obligations.DirectionFollowsTheVelocity : Prop :=
  State.reset.w.tr.dir = ⟨.none, .none⟩
  ∧ ∀ s : State, Tracks s → s.w.sampleTimer.isSome = true →
      ∃ t, exec .positionSample s = .next t
        ∧ (∀ c, (s.w.tr.window.length < 10 → t.w.tr.v.get c = 0)
            ∧ (∀ past o, s.w.tr.window[9]? = some past → s.w.tr.origin = some o →
                t.w.tr.v.get c =
                  ((paidLength s c ((conveyance s c).r + senseOf s c * (s.w.tr.n - o.n0).toInt) : Int)
                    - paidLength s c ((conveyance s c).r + senseOf s c * (past - o.n0).toInt)) * 50)
            ∧ (∀ past (l : Layer), s.w.tr.window[9]? = some past → s.w.tr.origin = none →
                l ∈ (conveyance s c).layers → (∀ m ∈ (conveyance s c).layers, m.lam ≤ l.lam) →
                t.w.tr.v.get c =
                  Int.tdiv (Int.tdiv (senseOf s c * (s.w.tr.n - past).toInt * l.lam) (wcfg s).countsPerRev) 20)
            ∧ (0 < t.w.tr.v.get c → t.w.tr.dir.get c = .down)
            ∧ (t.w.tr.v.get c < 0 → t.w.tr.dir.get c = .up)
            ∧ (t.w.tr.v.get c = 0 → t.w.tr.dir.get c = s.w.tr.dir.get c))
        ∧ (t.w.tr.history.head?).map (·.dir) = some t.w.tr.dir

/-- A legal edge changes N by one, wrapping at 32 bits, and restarts the stall timer; an illegal transition keeps N
and raises ENCODER for the next sample, but in FAULTED is not detected. A stall raises ENCODER, which under
TRIP_LATCHED asserts TRIP and takes the winder to TRIPPED. That the operand gives the edge's sense, and when a raised
stall is taken back, are the model's choices (log 8, log 9). -/
def Obligations.EncoderEdgesCountAndAStallTrips : Prop :=
  (∀ s : State, s.step ≠ .off → (s.cfg = none ∨ hasRole s .winder = true) →
     (∀ e, e ≠ EncoderChange.illegal → ∃ t, exec (.encoderEdge e) s = .next t
       ∧ t.w.tr.n = (if e = .forward then s.w.tr.n + 1 else s.w.tr.n - 1)
       ∧ t.w.tr.stallRaised = false ∧ t.w.tr.stall.all (· == 0) = true
       ∧ Follows
           { s with
             w.tr :=
               { s.w.tr with
                 n := t.w.tr.n, stall := s.w.tr.stall.map (fun _ => 0), stallRaised := false } }
           t)
     ∧ ∃ t, exec (.encoderEdge .illegal) s = .next t ∧ t.w.tr.n = s.w.tr.n
         ∧ t.w.flt.raised.encoder = (if s.step = .faulted then s.w.flt.raised.encoder else true)
         ∧ Follows { s with w.flt.raised := t.w.flt.raised } t)
  ∧ (∀ s : State, Tracks s → s.w.tr.stall.isSome = true → stallRuns s = true →
       (wcfg s).reactions.encoder = .tripLatched →
       ∃ t, exec .stallTimerExpiry s = .next t
         ∧ faultState t .encoder ≠ .clear ∧ t.pins.trip = true ∧ t.pins.permit = false
         ∧ (s.w.seq.wind ≠ .starting → s.w.seq.wind ≠ .faulted → t.w.seq.wind = .tripped)
         ∧ Follows { s with w.tr := { s.w.tr with stallRaised := true, stallSeen := true } } t)

/-- The parked level and custody at a position sample in IDLE. A service winder's cage is parked at the level of the landing
with a cage stop and a learned entry, not CONFLICT, whose stop lies within tolerance and nearest, at equal distance the lower
level; with none, and on a rock winder, at no level. Parked anew at a level, no FETCH or RELEVEL of that level waits on but
one that is dropping. A custodian at whose landing the cage is no longer parked ends, with the last custodian; a last
custodian ends where the cage is not within tolerance of its stop. A restoration names its landing custodian where the
cage is parked at its level with it as qualifying landing and none is named, and is over in any case. -/
def Obligations.ParkedLevelAndCustodyAtASample : Prop :=
  ∀ s : State, InWind s .idle → s.w.sampleTimer.isSome = true →
    ∃ t, exec .positionSample s = .next t ∧ t.w.seq.restoration = none ∧ t.l = s.l ∧ t.k = s.k
      ∧ (s.w.tr.stallRaised = false → tripLevel t = false → s.w.panel.selector ≠ .inspection → s.w.seq.list = [] →
          t.w.seq.wind = .idle)
      ∧ (t.w.seq.wind = .idle →
          let stop (q : Peer) (l : Nat) (d x : Int) : Prop :=
            ∃ g, geometryOf q (wcfg s).comps.a = some g ∧ g.point = .landing l ∧ g.hasLanding = true
              ∧ statusOf q ≠ .conflict ∧ stopDepth s .a q.node = some d ∧ t.w.tr.x.a = some x
              ∧ (x - d).natAbs ≤ (wcfg s).tol
          let nearer (x : Int) (l : Nat) (d : Int) (l' : Nat) (d' : Int) : Prop :=
            (x - d).natAbs < (x - d').natAbs ∨ (x - d).natAbs = (x - d').natAbs ∧ l < l'
          let stays (m : Nat) : Prop :=
            ∃ d x, stopDepth s .a m = some d ∧ t.w.tr.x.a = some x ∧ (x - d).natAbs ≤ (wcfg s).tol
          ((wcfg s).kind = .rock → t.w.seq.parked = none)
          ∧ ((wcfg s).kind = .service →
              ((∀ q ∈ s.peers, ∀ l d x, ¬stop q l d x) → t.w.seq.parked = none)
              ∧ (∀ q l d x, q ∈ s.peers → stop q l d x →
                  (∀ q' ∈ s.peers, ∀ l' d', stop q' l' d' x → l' ≤ 31 ∧ (q' = q ∨ nearer x l d l' d')) →
                  t.w.seq.parked = some (l, q.node)))
          ∧ (∀ l n, t.w.seq.parked = some (l, n) → s.w.seq.parked.map (·.1) ≠ some l →
              ∀ e ∈ t.w.seq.list, e.kind = .fetch ∨ e.kind = .relevel → e.level = l → e.mark.isSome = true)
          ∧ (∀ n, s.w.seq.restoration = none → s.w.seq.custodian = some n →
              ((∃ l, t.w.seq.parked = some (l, n)) → t.w.seq.custodian = some n
                ∧ ∀ m, s.w.seq.last = some m →
                    (stays m → t.w.seq.last = some m) ∧ (¬stays m → t.w.seq.last = none))
              ∧ ((∀ l, t.w.seq.parked ≠ some (l, n)) → t.w.seq.custodian = none ∧ t.w.seq.last = none))
          ∧ (∀ m, s.w.seq.restoration = none → s.w.seq.custodian = none → s.w.seq.last = some m →
              t.w.seq.custodian = none
                ∧ (stays m → t.w.seq.last = some m) ∧ (¬stays m → t.w.seq.last = none))
          ∧ (∀ n l, s.w.seq.restoration = some (n, l) → s.w.seq.custodian = none →
              (t.w.seq.parked = some (l, n) → t.w.seq.custodian = some n)
                ∧ (t.w.seq.parked ≠ some (l, n) → t.w.seq.custodian = none)))

/-! ## The wind sequencer's timers and the drive -/

/-- A new level of drive RUNNING is taken; where no rule acts on the change itself, no more comes of it than what follows
from the levels that then stand. In STARTING, in TRIPPED and where no rule acts on these levels, nothing else comes of it:
the sequencer with the wind state, the list, custody, the leg and the record, the survey, the learned tables, the
reference and the line controller stay. -/
def Obligations.DriveRunningLevelIsTaken : Prop :=
  ∀ (s : State) (on : Bool), s.step ≠ .off → (s.cfg = none ∨ hasRole s .winder = true) →
    (on = true ∨ isOn s.w.panel.driveRunning = false ∨ s.step ≠ .run ∨ s.w.seq.wind = .starting
      ∨ s.w.seq.wind = .tripped ∨ s.w.seq.wind = .idle ∨ s.w.seq.wind = .suspended ∨ s.w.seq.wind = .inspection) →
    ∃ t, exec (.driveRunningChange on) s = .next t ∧ t.w.panel.driveRunning = some on
      ∧ Follows { s with w.panel.driveRunning := some on } t
      ∧ (hasRole s .winder = true → s.w.seq.wind = .starting ∨ s.w.seq.wind = .tripped ∨ NothingDue s →
          t.w.seq = s.w.seq ∧ t.w.tr.learned = s.w.tr.learned ∧ t.w.tr.validated = s.w.tr.validated
            ∧ t.w.env.refSpeed = s.w.env.refSpeed ∧ t.w.env.refDir = s.w.env.refDir ∧ t.line = s.line)

/-- Drive RUNNING lost in RUNNING before the completion flag suspends the wind with cause DRIVE_LOST and the phase of the
latest sample; standstill in STOPPING, by the drop of drive RUNNING or by a halt term of 0 for the start window,
suspends it with the cause kept at entry and phase STOPPING. PERMIT is withdrawn. The state is SUSPENDED where TRIP is then
released and the selector is not at INSPECTION; a trip that the same event brings leads on to TRIPPED, and the selector at
INSPECTION to INSPECTION. A new record has the slot's calls and count 0; that of a RESUME leg is re-captured with its calls,
its target and its count. The STOPPING of a survey failure, which has no leg, ends at standstill with PERMIT withdrawn in IDLE,
from which the next call starts only on a validated track, or in TRIPPED or INSPECTION as above, and makes no record. -/
def Obligations.DriveLossAndStandstillSuspend : Prop :=
  (∀ s : State, InWind s .running → isOn s.w.panel.driveRunning = true → s.w.env.completion = false →
     ∀ g, s.w.seq.leg = some g →
     ∃ t, exec (.driveRunningChange false) s = .next t
       ∧ t.w.panel.driveRunning = some false ∧ t.w.seq.permit = false ∧ t.w.env.refSpeed = 0 ∧ t.w.seq.slot = []
       ∧ (t.w.seq.wind = .suspended ∨ t.w.seq.wind = .tripped ∨ t.w.seq.wind = .inspection)
       ∧ (tripLevel t = false → s.w.panel.selector ≠ .inspection → t.w.seq.wind = .suspended)
       ∧ (∃ r m, t.w.seq.record = some r ∧ r.cause = .driveLost ∧ r.phase = s.w.env.phase ∧ r.x = s.w.tr.x
           ∧ r.v = s.w.tr.v ∧ r.kind = .moving m ∧ m.dir = g.dir ∧ m.inProgress = false
           ∧ (g.kind ≠ .resume → m.calls = s.w.seq.slot ∧ m.count = 0)
           ∧ (∀ d k, g.kind = .resume → s.w.seq.record = some d → d.kind = .moving k →
               m.calls = k.calls ∧ m.count = k.count ∧ m.target = k.target))
       ∧ SameNode s t ∧ t.l = s.l ∧ t.k = s.k
       ∧ calmWinder t.w = calmWinder { s.w with panel.driveRunning := some false })
  ∧ (∀ (s : State) (c : Instr) (g : Leg) (cause : Cause), InWind s .stopping → s.w.seq.leg = some g →
       s.w.seq.stopCause = some cause →
       (c = .haltZeroTimeout ∧ s.w.seq.haltZero.isSome = true
         ∨ c = .driveRunningChange false ∧ isOn s.w.panel.driveRunning = true) →
       ∃ t, exec c s = .next t
         ∧ t.w.seq.permit = false ∧ t.w.env.refSpeed = 0 ∧ t.w.seq.slot = [] ∧ t.w.seq.haltZero = none
         ∧ (t.w.seq.wind = .suspended ∨ t.w.seq.wind = .tripped ∨ t.w.seq.wind = .inspection)
         ∧ (tripLevel t = false → s.w.panel.selector ≠ .inspection → t.w.seq.wind = .suspended)
         ∧ (∃ r m, t.w.seq.record = some r ∧ r.cause = cause ∧ r.phase = .stopping ∧ r.x = s.w.tr.x ∧ r.v = s.w.tr.v
             ∧ r.kind = .moving m ∧ m.dir = g.dir ∧ m.inProgress = false
             ∧ (g.kind ≠ .resume → m.calls = s.w.seq.slot ∧ m.count = 0)
             ∧ (∀ d k, g.kind = .resume → s.w.seq.record = some d → d.kind = .moving k →
                 m.calls = k.calls ∧ m.count = k.count ∧ m.target = k.target))
         ∧ SameNode s t ∧ t.l = s.l ∧ t.k = s.k)
  ∧ (∀ (s : State) (c : Instr), InWind s .stopping → s.w.seq.leg = none →
       (c = .haltZeroTimeout ∧ s.w.seq.haltZero.isSome = true
         ∨ c = .driveRunningChange false ∧ isOn s.w.panel.driveRunning = true) →
       ∃ t, exec c s = .next t
         ∧ t.w.env.refSpeed = 0 ∧ t.w.seq.haltZero = none ∧ (t.w.seq.permit = true → t.w.seq.wind = .preparing)
         ∧ (t.w.flt.trip = true → t.w.seq.wind = .tripped)
         ∧ (t.w.flt.trip = false →
             (s.w.panel.selector = .inspection → t.w.seq.wind = .inspection)
               ∧ (s.w.panel.selector ≠ .inspection →
                   t.w.seq.wind = .idle ∨ t.w.seq.wind = .preparing ∧ s.w.tr.validated = true ∧ s.w.seq.list ≠ []))
         ∧ (s.w.seq.custodian = none → t.w.seq.record = s.w.seq.record)
         ∧ SameNode s t ∧ t.l = s.l ∧ t.k = s.k)

/-- A controlled stop. After any command a leg in RUNNING before its completion flag has no kind ACTIVE under STOP and no
point of its compartments with STOP_HOLD or an enclosure not closed in its latest STATE. A STATE that shows one of these or
GATE_BREACH under STOP, PEER_SILENT under STOP, and TRACKING, MARKER_MISSED or LATE_RESTRICTION under STOP at the sample at
which its condition is present, take a leg in RUNNING to STOPPING with PERMIT, leg, slot and record kept and no halt latch
yet, its cause the kind, or else the node; after the completion flag the leg goes on to its end, and in STOPPING the cause and
the halt latch stay. That of several causes the first kind of R115's table is kept, a kind before a node and the lowest node
before others, is the model's choice (log 51). An event that also asserts TRIP may lead to TRIPPED. -/
def Obligations.ControlledStopLeavesRunning : Prop :=
  (∀ (c : Instr) (s t : State), exec c s = .next t → InWind t .running → t.w.env.completion = false →
     (∀ k, faultState t k = .active → (wcfg t).reactions.get k ≠ .stop)
     ∧ ∀ p ∈ members t, ∀ r, stateOf p = some r → showsHold r = false ∧ enclosureClosed r = true)
  ∧ (∀ (s : State) (c : Instr) (g : Leg), Runs s .winder → (s.w.seq.wind = .running ∨ s.w.seq.wind = .stopping) →
       s.w.seq.leg = some g →
       ((∃ n, c = .silenceTimeout n ∧ (peerOf s n).silence.isSome = true ∧ (peerOf s n).conflict = false
           ∧ isMember s (peerOf s n) = true ∧ (stateOf (peerOf s n)).isSome = true
           ∧ (wcfg s).reactions.peerSilent = .stop)
         ∨ ∃ n r, c = .stateFrame n r ∧ HeardFrom s n ∧ (peerOf s n).role = .point (pointOfState r)
             ∧ isMember s (peerOf s n) = true
             ∧ (showsHold r = true ∨ enclosureClosed r = false
               ∨ ∃ l, r = .landing l ∧ l.breach = true ∧ (wcfg s).reactions.gateBreach = .stop)) →
       ∃ t, exec c s = .next t ∧ t.l = s.l ∧ t.k = s.k
         ∧ (s.w.tr.stallRaised = false → tripLevel t = false → t.w.seq.wind ≠ .tripped)
         ∧ (t.w.seq.wind ≠ .tripped →
             t.w.seq.leg = some g ∧ t.w.seq.slot = s.w.seq.slot ∧ t.w.seq.permit = s.w.seq.permit
               ∧ t.w.seq.record = s.w.seq.record
               ∧ (s.w.seq.wind = .running → s.w.env.completion = false →
                   t.w.seq.wind = .stopping ∧ t.w.env.halt = none ∧ t.w.seq.stopCause.isSome = true
                     ∧ (∀ k, firstUnder t .stop = some k → t.w.seq.stopCause = some (.fault k))
                     ∧ (∀ n, firstUnder t .stop = none → reportedBar t = some n →
                         t.w.seq.stopCause = some (.node n)))
               ∧ (s.w.seq.wind = .running → s.w.env.completion = true →
                   t.w.seq.wind = .running ∧ t.w.env.completion = true
                     ∧ t.w.seq.completionWait = s.w.seq.completionWait)
               ∧ (s.w.seq.wind = .stopping → t.w.seq.wind = .stopping ∧ t.w.seq.stopCause = s.w.seq.stopCause
                   ∧ t.w.env.halt = s.w.env.halt)))
  ∧ (∀ (s : State) (g : Leg) (k : FaultKind), InWind s .running → s.w.env.completion = false →
       s.w.sampleTimer.isSome = true → s.w.seq.leg = some g → g.dir ≠ .none →
       (k = .tracking ∨ k = .markerMissed ∨ k = .lateRestriction) → s.w.flt.raised.get k = true →
       (wcfg s).reactions.get k = .stop →
       ∃ t, exec .positionSample s = .next t ∧ t.l = s.l ∧ t.k = s.k
         ∧ (t.w.seq.wind = .stopping ∨ t.w.seq.wind = .tripped
             ∨ t.w.seq.wind = .running ∧ t.w.env.completion = true)
         ∧ (∀ c d x, g.target.get c = some d → t.w.tr.x.get c = some x → (wcfg s).tol < (x - d).natAbs →
             t.w.seq.wind ≠ .running)
         ∧ (t.w.seq.wind = .stopping →
             (∃ f, firstUnder t .stop = some f ∧ t.w.seq.stopCause = some (.fault f)) ∧ t.w.seq.leg = some g
               ∧ t.w.seq.slot = s.w.seq.slot ∧ t.w.seq.permit = s.w.seq.permit ∧ t.w.env.halt = none))

/-- A start that fails with START_FAIL, by its window or by the drop of drive RUNNING: the condition is raised, PERMIT
is withdrawn, the slot empties; a CALL or PAIR leg sets the lockout and its calls return to the head of the list, where
with no custody to end no call leaves it but by its own check or for want of motion; a RESUME leg is re-captured with
that cause.
A start condition lost in PREPARING, by the selector leaving NORMAL, a STATE with STOP_HOLD, an open enclosure or a
GATE_BREACH under STOP, PEER_SILENT under STOP, or the target turned away: the same without START_FAIL and without the
lockout, the calls returning and no start following from a condition that holds every start. A RESUME leg is re-captured
with its calls, target and count: the cause is a kind ACTIVE under STOP, else that of the lowest member whose STATE bars the
start, TRACKING or GATE_BREACH where it carries that flag and its node where it does not, else that of the target turned away,
else SELECTOR. A target landing that reports itself out of service gives the fault kind where that STATE carries the flag and
its node where it does not; one that has gone SILENT gives its node. That a kind under STOP goes before a STATE's flags, the
lowest member before others, and a member before the target (log 59), that a member not heard and a target gone SILENT give
their nodes (log 70, log 50), and of a pair the point of A before that of B, are the model's choices. In these statements an event that also asserts TRIP may lead to TRIPPED. -/
def Obligations.FailedStartReturnsItsCalls : Prop :=
  (∀ (s : State) (c : Instr) (g : Leg), InWind s .preparing → s.w.seq.leg = some g →
     (c = .startTimerExpiry ∧ s.w.seq.startTimer.isSome = true
       ∨ c = .driveRunningChange false ∧ isOn s.w.panel.driveRunning = true) →
     ∃ t, exec c s = .next t
       ∧ t.w.flt.raised.startFail = true ∧ t.w.seq.permit = false ∧ t.w.env.refSpeed = 0 ∧ t.w.seq.slot = []
       ∧ t.w.seq.startTimer = none
       ∧ (g.kind ≠ .resume →
           (t.w.seq.wind = .idle ∨ t.w.seq.wind = .tripped ∨ t.w.seq.wind = .inspection)
             ∧ (t.w.seq.wind ≠ .inspection → t.w.seq.lockout = true)
             ∧ (s.w.seq.custodian = none → s.w.seq.last = none →
                 (isRock s = true ∨ ∀ d ∈ s.w.seq.slot ++ s.w.seq.list,
                   candidateFails s d = false ∧ (callTarget s d).all (within s .a) = false) →
                 t.w.seq.list = s.w.seq.slot ++ s.w.seq.list))
       ∧ (g.kind = .resume →
           (t.w.seq.wind = .suspended ∨ t.w.seq.wind = .tripped ∨ t.w.seq.wind = .inspection)
             ∧ ∃ r, t.w.seq.record = some r ∧ r.cause = .fault .startFail)
       ∧ SameNode s t ∧ t.l = s.l ∧ t.k = s.k)
  ∧ (∀ (s : State) (c : Instr) (g : Leg), InWind s .preparing → s.w.seq.leg = some g →
       let silenced (n : Nat) : Prop :=
         c = .silenceTimeout n ∧ (peerOf s n).silence.isSome = true ∧ (peerOf s n).conflict = false
       let reports (n : Nat) (r : StateReport) : Prop :=
         c = .stateFrame n r ∧ HeardFrom s n ∧ (peerOf s n).role = .point (pointOfState r)
       let barred : Prop :=
         (∃ x y z, c = .modeSelectorChange x y z ∧ ¬(x = true ∧ y = false ∧ z = false))
         ∨ (∃ n, silenced n ∧ isMember s (peerOf s n) = true ∧ (stateOf (peerOf s n)).isSome = true
             ∧ (wcfg s).reactions.peerSilent = .stop)
         ∨ ∃ n r, reports n r ∧ isMember s (peerOf s n) = true
             ∧ (showsHold r = true ∨ enclosureClosed r = false
               ∨ ∃ l, r = .landing l ∧ l.breach = true ∧ (wcfg s).reactions.gateBreach = .stop)
       let away : Prop :=
         (∃ l n, legTarget s = some (.level l) ∧ landingAt s (wcfg s).comps.a l = some (peerOf s n)
           ∧ (silenced n ∨ ∃ q, reports n (.landing q) ∧ q.outOfService = true))
         ∨ ∃ q n, legTarget s = some (.points q) ∧ (n = q.a ∨ n = q.b) ∧ silenced n
       (barred ∨ away
         ∧ (g.kind = .resume ∨ s.w.seq.list = [] ∧ s.w.seq.slot.length = (if isRock s then 2 else 1))) →
       ∃ t, exec c s = .next t
         ∧ t.w.seq.permit = false ∧ t.w.env.refSpeed = 0 ∧ t.w.env.refDir = .none ∧ t.w.seq.slot = []
         ∧ t.w.seq.startTimer = none ∧ t.w.flt.raised.startFail = s.w.flt.raised.startFail
         ∧ (s.w.tr.stallRaised = false → tripLevel t = false → t.w.seq.wind ≠ .tripped)
         ∧ (g.kind ≠ .resume →
             (t.w.seq.wind = .idle ∨ t.w.seq.wind = .tripped ∨ t.w.seq.wind = .inspection)
               ∧ (t.w.seq.wind ≠ .inspection → t.w.seq.lockout = s.w.seq.lockout)
               ∧ (t.w.seq.wind ≠ .tripped → s.w.seq.custodian = none → s.w.seq.last = none →
                   (∀ e ∈ s.w.seq.list, e.kind = .ready → deliveredFrom c ≠ some e.origin) →
                   (isRock s = true ∨ ∀ d ∈ s.w.seq.slot ++ s.w.seq.list, candidateFails t d = false) →
                   t.w.seq.list = s.w.seq.slot ++ s.w.seq.list))
         ∧ (∀ d m, g.kind = .resume → s.w.seq.record = some d → d.kind = .moving m →
             (t.w.seq.wind = .suspended ∨ t.w.seq.wind = .tripped ∨ t.w.seq.wind = .inspection)
               ∧ ∃ r, t.w.seq.record = some r ∧ r.kind = .moving { m with dir := g.dir, inProgress := false }
                   ∧ r.x = s.w.tr.x ∧ r.v = s.w.tr.v
                   ∧ r.phase = (if s.w.env.acc.isNone then .creep else s.w.env.phase)
                   ∧ (t.w.seq.wind ≠ .tripped → s.w.tr.stallRaised = false →
                       (∀ k, firstUnder t .stop = some k → r.cause = .fault k)
                       ∧ (firstUnder t .stop = none →
                           let shown (n : Nat) : Cause :=
                             match stateOf (peerOf t n) with
                             | some (.landing q) =>
                               if showsDoubt s q then .fault .tracking
                               else if q.breach then .fault .gateBreach else .node n
                             | _ => .node n
                           (∀ n, startBar t = some n → r.cause = shown n)
                           ∧ (startBar t = none →
                               (targetAway t m.target = false → r.cause = .selector)
                               ∧ (∀ l p, targetAway t m.target = true → m.target = .level l →
                                   landingAt t (wcfg s).comps.a l = some p →
                                   r.cause = if statusOf p = .silent then .node p.node else shown p.node)
                               ∧ (∀ q, targetAway t m.target = true → m.target = .points q →
                                   r.cause = .node (if statusOf (peerOf t q.a) = .silent then q.a else q.b))))))
         ∧ t.l = s.l ∧ t.k = s.k)

/-- PREPARING with drive RUNNING and the travel of its leg made enters RUNNING at that sample where no start condition
is lost and TRIP is released, and without either it stays. The travel asked is latched at the leg's first sample, 100 mm or
the least distance to a stop where that is less; the travel made is counted, with or without an origin, from the
acceleration start, which is this sample where it is the first or a restriction of the previous sample is left out. In
RUNNING the completion flag is set at the sample at
which every target stands within tolerance of its stop at creep speed or less; it takes the reference to 0 and starts
the completion wait. A leg whose flag is set ends at the drop of drive RUNNING or when the wait runs out: the call is
complete, a resumed leg's record is discarded, and the state is IDLE, from which the next call may start. A survey then
ends COMPLETE and validated with every pointer exhausted, PERMIT withdrawn, and otherwise MISSING with a point not reached, A's where both
have one by the model's choice (log 62), and then stands as a failed survey does (`SurveyFailed`). In SURVEY the completion flag
is set at the sample at which A stands within tolerance of the bottom point's stop at creep speed or less, its learned stop once
its entry is recorded and before that its announced stop and the survey window, and the flag does there what it does in RUNNING.
After the leg's end, and after the survey's, the state is IDLE, or PREPARING for the next call, where TRIP is then released and the
selector is not at INSPECTION; a trip that the same event brings leads on to TRIPPED, and the selector at INSPECTION to
INSPECTION. Zones are restrictions one by one, as the model reads the manual (log 17). -/
def Obligations.CompletedLegEnds : Prop :=
  (∀ (s : State) (g : Leg), InWind s .preparing → s.w.sampleTimer.isSome = true → s.w.seq.leg = some g →
     ∃ t, exec .positionSample s = .next t
       ∧ (let start : Count :=
            match s.w.env.acc with
            | none => s.w.tr.n
            | some l => if ∀ r ∈ s.w.env.applied, r ∈ t.w.env.applied then l.n else s.w.tr.n
          let gained (o : Origin) (n : Count) : Int :=
            paidLength s .a ((conveyance s .a).r + senseOf s .a * (n - o.n0).toInt)
          let largest : Nat := (conveyance s .a).layers.foldl (fun m k => max m k.lam) 0
          let made : Nat :=
            match s.w.tr.origin with
            | some o => ((gained o s.w.tr.n - gained o start) * g.dir.sign).toNat
            | none => (s.w.tr.n - start).toInt.natAbs * largest / (wcfg s).countsPerRev / 1000
          let away (c : Conv) (d x : Int) : Int := max 0 ((d - x) * (dirFor c g.dir).sign)
          let least (need : Int) : Prop :=
            need ≤ 100 ∧ (∀ c d x, g.target.get c = some d → t.w.tr.x.get c = some x → need ≤ away c d x)
              ∧ (need = 100 ∨ ∃ c d x, g.target.get c = some d ∧ t.w.tr.x.get c = some x ∧ need = away c d x)
          ∀ need : Int, (g.need = some need ∨ g.need = none ∧ least need) →
            ((made : Int) < need ∨ isOn s.w.panel.driveRunning = false → t.w.seq.wind ≠ .running)
            ∧ (startBar s = none → (legTarget s).any (targetAway s) = false → s.w.panel.selector = .normal →
                s.w.tr.stallRaised = false → noStopActive t = true → tripLevel t = false →
                t.w.seq.permit = s.w.seq.permit ∧ t.w.seq.leg = some { g with need := some need }
                  ∧ t.w.seq.slot = s.w.seq.slot
                  ∧ (need ≤ (made : Int) → isOn s.w.panel.driveRunning = true →
                      t.w.seq.wind = .running ∧ t.w.seq.startTimer = none)
                  ∧ ((made : Int) < need ∨ isOn s.w.panel.driveRunning = false →
                      t.w.seq.wind = .preparing ∧ t.w.seq.startTimer = s.w.seq.startTimer))))
  ∧ (∀ (s : State) (g : Leg), InWind s .running → s.w.sampleTimer.isSome = true → s.w.seq.leg = some g →
       g.dir ≠ .none →
       ∃ t, exec .positionSample s = .next t
         ∧ (t.w.seq.wind = .running →
             (t.w.env.completion = true ↔ s.w.env.completion = true
               ∨ (∃ c d, g.target.get c = some d)
                 ∧ ∀ c d, g.target.get c = some d → ∃ x, t.w.tr.x.get c = some x
                     ∧ (d - x).natAbs ≤ (wcfg s).tol ∧ (t.w.tr.v.get c).natAbs ≤ (wcfg s).creep)
             ∧ (t.w.env.completion = true → t.w.env.refSpeed = 0 ∧ t.w.env.refDir = .none)
             ∧ (t.w.env.completion = true → s.w.env.completion = false →
                 t.w.seq.completionWait = some (1000 * (wcfg s).startWindow))))
  ∧ (∀ s : State, InWind s .survey → s.w.sampleTimer.isSome = true → (∀ g, s.w.seq.leg = some g → g.dir ≠ .none) →
       ∃ t, exec .positionSample s = .next t
         ∧ (t.w.seq.wind = .survey →
             (t.w.env.completion = true ↔ s.w.env.completion = true
               ∨ ∃ p x, s.w.seq.survey.bottom = some p ∧ t.w.tr.x.a = some x
                   ∧ (let stop : Int :=
                        match learnedOf s .a p.node with
                        | some e => e.stop
                        | none => p.stop + (wcfg s).surveyWindow
                      (stop - x).natAbs ≤ (wcfg s).tol)
                   ∧ t.w.tr.v.a.natAbs ≤ (wcfg s).creep)
             ∧ (t.w.env.completion = true → t.w.env.refSpeed = 0 ∧ t.w.env.refDir = .none)
             ∧ (t.w.env.completion = true → s.w.env.completion = false →
                 t.w.seq.completionWait = some (1000 * (wcfg s).startWindow))))
  ∧ (∀ (s : State) (c : Instr), InWind s .running →
       (c = .completionWaitExpiry ∧ s.w.seq.completionWait.isSome = true
         ∨ c = .driveRunningChange false ∧ isOn s.w.panel.driveRunning = true ∧ s.w.env.completion = true) →
       ∃ t, exec c s = .next t
         ∧ t.w.seq.completionWait = none ∧ t.w.env.completion = false
         ∧ (t.w.seq.wind = .idle ∨ t.w.seq.wind = .preparing ∨ t.w.seq.wind = .tripped ∨ t.w.seq.wind = .inspection)
         ∧ (tripLevel t = false → t.w.seq.wind ≠ .tripped
             ∧ (s.w.panel.selector ≠ .inspection → t.w.seq.wind = .idle ∨ t.w.seq.wind = .preparing))
         ∧ (s.w.seq.list = [] → t.w.seq.slot = [] ∧ t.w.seq.permit = false ∧ t.w.env.refSpeed = 0
             ∧ t.w.seq.wind ≠ .preparing)
         ∧ (inResumedLeg s = true → s.w.seq.custodian = none ∨ t.w.seq.wind ≠ .tripped → t.w.seq.record = none)
         ∧ SameNode s t ∧ t.l = s.l ∧ t.k = s.k)
  ∧ (∀ (s : State) (c : Instr), InWind s .survey → surveying s = true →
       (c = .completionWaitExpiry ∧ s.w.seq.completionWait.isSome = true
         ∨ c = .driveRunningChange false ∧ isOn s.w.panel.driveRunning = true ∧ s.w.env.completion = true) →
       ∃ t, exec c s = .next t ∧ t.w.seq.completionWait = none ∧ SameNode s t ∧ t.l = s.l ∧ t.k = s.k
         ∧ ((∀ v, pointerPoint s.w.seq.survey v = none) →
             t.w.seq.survey.outcome = .complete ∧ t.w.seq.survey.failing = none ∧ t.w.tr.validated = true
               ∧ t.w.tr.learned = s.w.tr.learned
               ∧ (t.w.seq.wind = .idle ∨ t.w.seq.wind = .preparing ∨ t.w.seq.wind = .tripped
                   ∨ t.w.seq.wind = .inspection)
               ∧ (tripLevel t = true → t.w.seq.wind = .tripped)
               ∧ (tripLevel t = false → t.w.seq.wind ≠ .tripped
                   ∧ (s.w.panel.selector = .inspection → t.w.seq.wind = .inspection)
                   ∧ (s.w.panel.selector ≠ .inspection → t.w.seq.wind = .idle ∨ t.w.seq.wind = .preparing))
               ∧ (t.w.seq.wind ≠ .preparing → t.w.seq.permit = false ∧ t.w.env.refSpeed = 0 ∧ t.w.env.refDir = .none)
               ∧ (s.w.seq.list = [] → t.w.seq.wind ≠ .preparing))
         ∧ (∀ v p, pointerPoint s.w.seq.survey v = some p →
             (v = .b → pointerPoint s.w.seq.survey .a = none) →
             t.w.seq.survey.outcome = .missing ∧ t.w.seq.survey.failing = some (p.node, v)
               ∧ t.w.tr.validated = false ∧ t.w.tr.learned = ⟨[], []⟩ ∧ SurveyFailed s t))

/-- The release hold running out stops it, and the service order formed again starts the leg of its candidate in IDLE
where R94's conditions hold: PREPARING with PERMIT, the call in the slot, no custody. That order is, of the calls not
dropping, the oldest DISPATCH of the custodian or the last custodian, else the oldest RELEVEL, else the oldest FETCH; while the
hold runs it takes such a DISPATCH alone. The candidate passes its check where its landing announces the level with a cage
stop, is not CONFLICT and has a learned entry, and a RELEVEL where the cage stands within the relevel window too, beyond
tolerance. One that fails it leaves the list with its DROPPED answer where the ANSWER queue has room and takes the dropping mark
where it has none, and the winder then does what it does with that list: the order is searched again. One that passes it, its
conditions holding, within tolerance of its stop leaves the list complete with no answer and the order is searched again, whatever
the start lockout by the model's choice (log 60). Of several landings that announce a level the lowest node's is looked
at, the model's choice too (log 29). A rock winder
starts its READY pair so, each skip bound for the other's point: the oldest READY of a loader that has a partner, with the
oldest READY of a tipper that is one, each skip within tolerance of its own point's stop, the compartments differing and both
stops to go to learned. It does so at the command that makes the pair due: the READY CALL that completes it, or a fault reset
that clears the lockout; that the model looks for a pair at every command, here the MOTION interval too, is its reading of the
manual (log 23). That interval running out queues a report of the winder as it stands, with the reference as the latest sample
set it, and restarts for 50 ms where the envelope governs and 500 ms where it does not. That a pair is formed only where both
skips have a stop to go to is read from the manual by inference (log 30). -/
def Obligations.ServiceOrderStartsLegs : Prop :=
  (∀ s : State, Runs s .winder →
     (∃ t, exec .releaseHoldExpiry s = .next t ∧ t.w.seq.releaseHold = none
       ∧ Follows { s with w.seq.releaseHold := none } t)
     ∧ (s.w.seq.motionTimer.isSome = true →
         ∃ t r, exec .motionIntervalExpiry s = .next t ∧ latestReport t = some r
           ∧ r.motion.wind = t.w.seq.wind ∧ r.status.custodian = t.w.seq.custodian.getD 0
           ∧ r.motion.x = (t.w.tr.x.both fun x => x.map sendDepth) ∧ r.motion.cls = t.w.tr.clsSample
           ∧ r.motion.number = r.status.number ∧ r.status.ceiling = min 32767 s.w.env.ceiling
           ∧ r.status.refSpeed = min 32767 s.w.env.shownSpeed ∧ r.status.refDir = s.w.env.shownDir
           ∧ t.line.reportCounter = (r.motion.number + 1) % 256
           ∧ (t.w.seq.wind = s.w.seq.wind → t.w.seq.motionTimer = some (if governs s then 50 else 500))
           ∧ (t.w.seq.wind ≠ s.w.seq.wind → t.w.seq.motionTimer = some (if governs t then 50 else 500))
           ∧ SameNode s t ∧ t.l = s.l ∧ t.k = s.k ∧ calmWinder t.w = calmWinder s.w))
  ∧ (∀ (s : State) (c : Call), s.w.seq.releaseHold.isSome = true → serviceOrder s = some c →
       c ∈ s.w.seq.list ∧ c.mark = none ∧ c.kind = .dispatch
         ∧ (s.w.seq.custodian = some c.origin ∨ s.w.seq.last = some c.origin))
  ∧ (∀ (s : State) (before after : List Call) (c : Call) (p : Peer) (g : Geometry) (d x : Int),
       let fit : Prop :=
         tripLevel s = false ∧ (∀ k, faultState s k ≠ .held)
           ∧ (∀ k, faultState s k = .active → (wcfg s).reactions.get k ≠ .stop) ∧ s.w.tr.validated = true
           ∧ s.w.panel.selector = .normal ∧ s.w.flt.alarmSet = []
           ∧ ∀ q ∈ members s, ∃ r, stateOf q = some r ∧ showsHold r = false ∧ enclosureClosed r = true
       let entitled (e : Call) : Prop := e.kind = .dispatch ∧ s.w.seq.last = some e.origin
       let no (es : List Call) (k : Call → Prop) : Prop := ∀ e ∈ es, e.mark = none → ¬k e
       let first : Prop :=
         entitled c ∧ no before entitled
           ∨ c.kind = .relevel ∧ no s.w.seq.list entitled ∧ no before (fun e => e.kind = .relevel)
           ∨ c.kind = .fetch ∧ no s.w.seq.list entitled ∧ no s.w.seq.list (fun e => e.kind = .relevel)
               ∧ no before (fun e => e.kind = .fetch)
       InWind s .idle → FaultsSettled s → isRock s = false → s.w.seq.custodian = none → s.w.seq.lockout = false →
       fit → s.w.seq.list = before ++ c :: after → c.mark = none → first →
       landingAt s (wcfg s).comps.a (c.dest.getD c.level) = some p → statusOf p ≠ .conflict → statusOf p ≠ .silent →
       (∀ r, stateOf p = some (.landing r) → r.outOfService = false) →
       geometryOf p (wcfg s).comps.a = some g → g.point = .landing (c.dest.getD c.level) → g.hasLanding = true →
       stopDepth s .a p.node = some d → s.w.tr.x.a = some x → (wcfg s).tol < (x - d).natAbs →
       (c.kind = .relevel → (x - d).natAbs ≤ (wcfg s).relevelWindow) →
       ∃ t, exec .releaseHoldExpiry s = .next t
         ∧ t.w.seq.wind = .preparing ∧ t.w.seq.permit = true ∧ t.pins.permit = true ∧ t.w.seq.slot = [c]
         ∧ t.w.seq.leg = some { kind := .call, dir := if x < d then .down else .up, target := ⟨some d, none⟩
                                need := none }
         ∧ t.w.seq.startTimer = some (1000 * (wcfg s).startWindow) ∧ t.w.seq.custodian = none ∧ t.w.seq.last = none
         ∧ t.w.tr.cls.a = (if c.kind = .dispatch then c.cls.getD s.w.tr.cls.a else .empty)
         ∧ SameNode s t ∧ t.l = s.l ∧ t.k = s.k)
  ∧ (∀ (s : State) (before after : List Call) (c : Call),
       let entitled (e : Call) : Prop :=
         e.kind = .dispatch ∧ (s.w.seq.custodian = some e.origin ∨ s.w.seq.last = some e.origin)
       let no (es : List Call) (k : Call → Prop) : Prop := ∀ e ∈ es, e.mark = none → ¬k e
       let first : Prop :=
         entitled c ∧ no before entitled
           ∨ c.kind = .relevel ∧ no s.w.seq.list entitled ∧ no before (fun e => e.kind = .relevel)
           ∨ c.kind = .fetch ∧ no s.w.seq.list entitled ∧ no s.w.seq.list (fun e => e.kind = .relevel)
               ∧ no before (fun e => e.kind = .fetch)
       let passes (p : Peer) (d : Int) : Prop :=
         landingAt s (wcfg s).comps.a (c.dest.getD c.level) = some p ∧ statusOf p ≠ .conflict
           ∧ (∃ g, geometryOf p (wcfg s).comps.a = some g ∧ g.point = .landing (c.dest.getD c.level)
               ∧ g.hasLanding = true)
           ∧ stopDepth s .a p.node = some d
           ∧ (c.kind = .relevel → ∃ x, s.w.tr.x.a = some x ∧ (x - d).natAbs ≤ (wcfg s).relevelWindow
               ∧ (wcfg s).tol < (x - d).natAbs)
       let gone : State := { s with w.seq.list := before ++ after }
       let answered : State :=
         { gone with
           line.queue.answer :=
             s.line.queue.answer ++ [{ target := c.origin, kind := some c.kind, reply := .dropped c.seq }] }
       let marked : State :=
         { s with
           w.seq.list := before ++ { c with mark := some s.w.seq.markCount } :: after
           w.seq.markCount := s.w.seq.markCount + 1 }
       let leaves (u : State) : Prop :=
         exec .releaseHoldExpiry s = exec .releaseHoldExpiry u
           ∧ ∃ t more, exec .releaseHoldExpiry s = .next t ∧ t.line.queue.answer = u.line.queue.answer ++ more
               ∧ ∀ e ∈ t.w.seq.list, e.mark = none → ¬(e.kind = c.kind ∧ e.origin = c.origin ∧ e.dest = c.dest)
       InWind s .idle → FaultsSettled s → isRock s = false → tripLevel s = false → s.w.panel.selector ≠ .inspection →
       s.w.seq.releaseHold.isSome = true → CallsDistinct s → s.w.seq.list = before ++ c :: after → c.mark = none →
       first →
       ((∀ p d, ¬passes p d) →
           (s.line.queue.answer.length < 8 → leaves answered) ∧ (8 ≤ s.line.queue.answer.length → leaves marked))
       ∧ (∀ p d x, passes p d → s.w.tr.x.a = some x → (x - d).natAbs ≤ (wcfg s).tol →
           (∀ k, faultState s k ≠ .held) → (∀ k, faultState s k = .active → (wcfg s).reactions.get k ≠ .stop) →
           s.w.tr.validated = true → s.w.panel.selector = .normal → s.w.flt.alarmSet = [] →
           (∀ q ∈ members s, ∃ r, stateOf q = some r ∧ showsHold r = false ∧ enclosureClosed r = true) →
           s.w.seq.custodian = none → statusOf p ≠ .silent →
           (∀ r, stateOf p = some (.landing r) → r.outOfService = false) → leaves gone))
  ∧ (∀ (s : State) (i : Instr) (list before after before' after' : List Call) (a b : Call),
       let fit : Prop :=
         tripLevel s = false ∧ (∀ k, faultState s k ≠ .held)
           ∧ (∀ k, faultState s k = .active → (wcfg s).reactions.get k ≠ .stop) ∧ s.w.tr.validated = true
           ∧ s.w.panel.selector = .normal ∧ s.w.flt.alarmSet = []
           ∧ ∀ q ∈ members s, ∃ r, stateOf q = some r ∧ showsHold r = false ∧ enclosureClosed r = true
       let atPoint (k : PointKind) (e : Call) : Prop :=
         e ∈ list ∧ e.mark = none ∧ e.kind = .ready ∧ (peerOf s e.origin).role = .point k
           ∧ (peerOf s e.origin).conflict = false
           ∧ ∃ v d x, convOf s e.comp = some v ∧ stopDepth s v e.origin = some d ∧ s.w.tr.x.get v = some x
               ∧ (x - d).natAbs ≤ (wcfg s).tol
       let bound (e f : Call) : Prop := ∃ v d, convOf s e.comp = some v ∧ stopDepth s v f.origin = some d
       let pair (e f : Call) : Prop := f.comp ≠ e.comp ∧ bound e f ∧ bound f e
       InWind s .idle → FaultsSettled s → isRock s = true →
       (i = .motionIntervalExpiry ∧ s.w.seq.motionTimer.isSome = true ∧ s.w.seq.lockout = false
           ∧ list = s.w.seq.list
         ∨ i = .faultReset ∧ list = s.w.seq.list
         ∨ ∃ n f c, i = .callFrame n f ∧ HeardFrom s n ∧ (peerOf s n).heard = .present ∧ f.target = s.config.node
             ∧ s.line.queue.answer.length < 8 ∧ callEntry s n f.ask = some c ∧ verdictOn s c = .accepted
             ∧ s.w.seq.lockout = false ∧ list = s.w.seq.list ++ [c]) →
       fit →
       list = before ++ a :: after → atPoint .loader a →
       (∀ e ∈ before, atPoint .loader e → ∀ f, atPoint .tipper f → ¬pair e f) →
       list = before' ++ b :: after' → atPoint .tipper b → pair a b →
       (∀ f ∈ before', atPoint .tipper f → ¬pair a f) →
       statusOf (peerOf s a.origin) ≠ .silent → statusOf (peerOf s b.origin) ≠ .silent →
       let loaderAtA : Prop := convOf s a.comp = some .a
       ∃ t g, exec i s = .next t
         ∧ t.w.seq.wind = .preparing ∧ t.w.seq.permit = true ∧ t.w.seq.slot = [a, b] ∧ t.w.seq.leg = some g
         ∧ g.kind = .pair
         ∧ (loaderAtA → g.dir = .up ∧ g.target = ⟨stopDepth s .a b.origin, stopDepth s .b a.origin⟩)
         ∧ (¬loaderAtA → g.dir = .down ∧ g.target = ⟨stopDepth s .a a.origin, stopDepth s .b b.origin⟩)
         ∧ g.target.a.isSome = true ∧ g.target.b.isSome = true ∧ t.w.seq.lockout = false
         ∧ ((∀ n f, i ≠ .callFrame n f) → SameNode s t) ∧ t.l = s.l ∧ t.k = s.k)

/-- A drive port telegram is sent with the latest values every 2 ms: twelve bytes. Byte 0 is a counter that advances, bytes 1
and 2 the reference speed, byte 3 its direction, byte 4 the refusal indication, byte 5 the record's kind, phase and resume
count, byte 6 its cause, byte 7 the trip cause while TRIP is asserted, bytes 8 to 10 the captured X_A, the nearest value of its
field, and byte 11 the total of the others; bytes 5, 6 and 8 to 10 are 0 with no record. That the bits of bytes 3 and 5 to which
R206 gives no content are 0 (log 76), and the resume count of a PARKED record with them (log 75), are the model's choices; that a
telegram is sent before acceptance too is read from the manual by inference (log 34). Where an event that follows withdraws
PERMIT, a second telegram is the latest. A command that withdraws PERMIT sends one at once, with the reference at 0 and NONE and
the trip cause as the same command leaves it. -/
def Obligations.DriveTelegramCarriesItsBytes : Prop :=
  (∀ s : State, s.step ≠ .off → (s.cfg = none ∨ hasRole s .winder = true) → s.w.drive.timer.isSome = true →
    ∃ t, exec .driveTelegram s = .next t ∧ t.w.drive.timer = some 2 ∧ t.w.drive.telegram.length = 12
      ∧ (t.w.drive.telegram[11]?).map (·.toNat)
          = some (((t.w.drive.telegram.take 11).map (·.toNat)).sum % 256)
      ∧ (s.w.seq.permit = false ∨ s.step ≠ .listen ∧ s.step ≠ .run
            ∨ t.w.seq.permit = true ∧ t.w.seq.wind = s.w.seq.wind ∧ s.w.seq.wind ≠ .preparing →
          let byte (n v : Nat) : Prop := (t.w.drive.telegram[n]?).map (·.toNat) = some v
          t.w.drive.telegram = telegramBytes s ∧ t.w.drive.counter = s.w.drive.counter + 1
            ∧ byte 0 s.w.drive.counter.toNat
            ∧ (s.w.env.refSpeed < 65536 → byte 1 (s.w.env.refSpeed / 256) ∧ byte 2 (s.w.env.refSpeed % 256))
            ∧ byte 3 (match s.w.env.refDir with | .none => 0 | .down => 1 | .up => 2)
            ∧ byte 4
                (match s.w.panel.refusal with
                 | .none => 0
                 | .survey => 16
                 | .resume .selector => 33
                 | .resume .count => 34
                 | .resume .fault => 35
                 | .resume .cause => 36
                 | .resume .conditions => 37
                 | .resume .noTarget => 38
                 | .cancel => 48)
            ∧ (s.w.seq.record = none → byte 5 0 ∧ byte 6 0 ∧ byte 8 0 ∧ byte 9 0 ∧ byte 10 0)
            ∧ (∀ r, s.w.seq.record = some r →
                (∀ m, r.kind = .moving m → m.count ≤ 3 →
                  byte 5
                    (64 + m.count
                      + 8 * (match r.phase with
                             | .none => 0 | .accel => 1 | .full => 2 | .retard => 3 | .creep => 4 | .stopping => 5)))
                ∧ (∀ k, r.kind = .parked k → byte 5 (128 + 8 * 6))
                ∧ (∀ k, r.cause = .fault k → byte 6 k.code)
                ∧ (r.cause = .driveLost → byte 6 13) ∧ (r.cause = .selector → byte 6 14)
                ∧ (∀ n, r.cause = .node n → n ≤ 40 → byte 6 (64 + n))
                ∧ ∃ a b c, byte 8 a ∧ byte 9 b ∧ byte 10 c
                    ∧ (r.x.a = none → 65536 * a + 256 * b + c = 8388608)
                    ∧ ∀ x, r.x.a = some x →
                        let sent : Int := max (-8388607) (min 8388607 x)
                        ((65536 * a + 256 * b + c : Nat) : Int) = if sent < 0 then sent + 16777216 else sent)
            ∧ (tripLevel s = false → byte 7 255)
            ∧ (tripLevel s = true → s.w.flt.trip = true →
                (∀ k, s.w.flt.tripCause = .fault k → byte 7 k.code)
                ∧ (s.w.flt.tripCause = .powerUp → byte 7 12))
            ∧ (tripLevel s = true → s.w.flt.trip = false →
                let asserts (k : FaultKind) : Prop :=
                  (wcfg s).reactions.get k = .tripLatched ∧ faultState s k ≠ .clear
                    ∨ (wcfg s).reactions.get k = .tripAuto ∧ faultState s k = .active
                ∀ k, asserts k → (∀ j, asserts j → k.code ≤ j.code) → byte 7 k.code))
      ∧ Follows
          { s with w.drive := { timer := some 2, telegram := telegramBytes s, counter := s.w.drive.counter + 1 } } t)
  ∧ (∀ (c : Instr) (s t : State), exec c s = .next t → Runs s .winder → FaultsSettled s →
       (wcfg s).reactions.encoder ≠ .tripAuto → (t.step = .run ∨ t.step = .faulted) →
       s.w.seq.permit = true → t.w.seq.permit = false →
       let byte (n v : Nat) : Prop := (t.w.drive.telegram[n]?).map (·.toNat) = some v
       t.w.drive.counter ≠ s.w.drive.counter ∧ t.w.drive.telegram.length = 12 ∧ byte 1 0 ∧ byte 2 0 ∧ byte 3 0
         ∧ (tripLevel t = false → byte 7 255)
         ∧ (tripLevel t = true →
             (∀ k, t.w.flt.tripCause = .fault k → byte 7 k.code) ∧ (t.w.flt.tripCause = .powerUp → byte 7 12)))

/-! ## The winder driver's panel -/

/-- The mode selector's position is taken, one of three or INVALID, and its change clears the refusal indication; at
INSPECTION in IDLE or SUSPENDED with TRIP released, INSPECTION is entered with custody and lockout cleared and the MODE cap in
force, flat, at the inspection speed; the cap stays while the state does and is lifted on leaving it. INSPECTION is
left at NORMAL with drive RUNNING not active, by the change of either, for SUSPENDED with a record and otherwise for IDLE, from
which the next call may start; at NORMAL with drive RUNNING active, at SURVEY and at INVALID the state stays with PERMIT
withdrawn. An input not yet qualified reads as off by the model's choice (log 13). -/
def Obligations.SelectorIsTaken : Prop :=
  (∀ (s : State) (a b c : Bool), s.step ≠ .off → (s.cfg = none ∨ hasRole s .winder = true) →
     ∃ t, exec (.modeSelectorChange a b c) s = .next t
       ∧ t.w.panel.selector = (if a && !b && !c then .normal else if !a && b && !c then .inspection
           else if !a && !b && c then .survey else .invalid)
       ∧ Follows
           { s with
             w.panel.selector := t.w.panel.selector
             w.panel.refusal := if t.w.panel.selector = s.w.panel.selector then s.w.panel.refusal else .none }
           t
       ∧ (Runs s .winder → FaultsSettled s → tripLevel s = false → t.w.panel.selector = .inspection →
           (s.w.seq.wind = .idle ∨ s.w.seq.wind = .suspended) →
           t.w.seq.wind = .inspection ∧ t.w.seq.custodian = none ∧ t.w.seq.last = none ∧ t.w.seq.lockout = false
             ∧ t.w.seq.record = s.w.seq.record ∧ t.w.seq.permit = false
             ∧ ∃ cap, t.w.env.capMode = some cap ∧ cap.value = (wcfg s).inspection ∧ cap.flat = true)
       ∧ (InWind s .inspection →
           (t.w.seq.wind = .inspection → t.w.env.capMode = s.w.env.capMode)
             ∧ (t.w.seq.wind ≠ .inspection → t.w.env.capMode = none))
       ∧ (InWind s .inspection → FaultsSettled s → tripLevel s = false →
           (t.w.panel.selector = .normal → isOn s.w.panel.driveRunning = false →
             t.w.seq.permit = (t.w.seq.wind == .preparing) ∧ t.w.seq.record = s.w.seq.record
               ∧ (s.w.seq.record.isSome = true → t.w.seq.wind = .suspended)
               ∧ (s.w.seq.record = none → t.w.seq.wind = .idle ∨ t.w.seq.wind = .preparing)
               ∧ (s.w.seq.record = none → s.w.seq.list = [] → t.w.seq.wind = .idle))
           ∧ (t.w.panel.selector = .normal → isOn s.w.panel.driveRunning = true →
               t.w.seq.wind = .inspection ∧ t.w.seq.permit = false)
           ∧ (t.w.panel.selector = .survey ∨ t.w.panel.selector = .invalid →
               t.w.seq.wind = .inspection ∧ t.w.seq.permit = false)
           ∧ (t.w.panel.selector = .inspection → t.w.seq.wind = .inspection)))
  ∧ (∀ s : State, InWind s .inspection → FaultsSettled s → tripLevel s = false → s.w.panel.selector = .normal →
       isOn s.w.panel.driveRunning = true →
       ∃ t, exec (.driveRunningChange false) s = .next t
         ∧ (s.w.seq.record.isSome = true → t.w.seq.wind = .suspended ∧ t.w.seq.permit = false)
         ∧ (s.w.seq.record = none → t.w.seq.wind = .idle ∨ t.w.seq.wind = .preparing)
         ∧ (s.w.seq.record = none → s.w.seq.list = [] → t.w.seq.wind = .idle ∧ t.w.seq.permit = false)
         ∧ t.w.seq.record = s.w.seq.record ∧ t.w.env.capMode = none)

/-- UP and DOWN are taken as levels; in INSPECTION, PERMIT rises for a direction that has become active where TRIP is
released, no STOP kind is ACTIVE, enclosures are closed, no hold stands and the overwind memory permits it. Held, it is
withdrawn with neither input active and drive RUNNING not active, at a direction that a memory forbids, and at a reversal
while drive RUNNING is active, judged against the direction last held since PERMIT rose by the model's reading (log 22).
After any command a PERMIT held in INSPECTION has TRIP released, no STOP kind ACTIVE, every enclosure closed, no hold, no
ALARM, the selector at INSPECTION, no memory against its direction, and a direction or drive RUNNING active. A PERMIT that
rises, in whatever state, rises with TRIP released and every enclosure closed, and in INSPECTION at a new activation of a
direction alone. An input not yet qualified reads as off by the model's choice (log 13). -/
def Obligations.InspectionPermitRisesAndFalls : Prop :=
  (∀ (s : State) (up down : Bool), s.step ≠ .off → (s.cfg = none ∨ hasRole s .winder = true) →
     ∃ t, exec (.inspectionDirection up down) s = .next t
       ∧ t.w.panel.up = some up ∧ t.w.panel.down = some down
       ∧ Follows
           { s with
             w.panel :=
               { s.w.panel with up := some up, down := some down, refusal := t.w.panel.refusal } }
           t
       ∧ (InWind s .inspection → s.w.seq.permit = false → s.w.panel.selector = .inspection → FaultsSettled s →
           inspectionFit s = true → up ≠ down → (up = true → isOn s.w.panel.up = false) →
           (down = true → isOn s.w.panel.down = false) → memoryPermits s (if up then .up else .down) = true →
           t.w.seq.permit = true ∧ t.w.seq.wind = .inspection ∧ t.w.panel.heldDir = (if up then .up else .down)
             ∧ t.pins.permit = true)
       ∧ (InWind s .inspection → s.w.seq.permit = true → s.w.panel.selector = .inspection → FaultsSettled s →
           inspectionFit s = true →
           let dir : Dir := if up then .up else .down
           let reversal : Prop :=
             s.w.panel.heldDir ≠ .none ∧ dir ≠ s.w.panel.heldDir ∧ isOn s.w.panel.driveRunning = true
           t.w.seq.wind = .inspection
             ∧ (up = false → down = false → isOn s.w.panel.driveRunning = false →
                 t.w.seq.permit = false ∧ t.pins.permit = false ∧ t.w.env.refSpeed = 0)
             ∧ (up ≠ down → reversal ∨ memoryPermits s dir = false → t.w.seq.permit = false ∧ t.w.env.refSpeed = 0)
             ∧ (up ≠ down → ¬reversal → memoryPermits s dir = true →
                 t.w.seq.permit = true ∧ t.w.panel.heldDir = dir)))
  ∧ (∀ (c : Instr) (s t : State), exec c s = .next t → InWind t .inspection → t.w.seq.permit = true →
       let up := isOn t.w.panel.up
       let down := isOn t.w.panel.down
       tripLevel t = false ∧ (∀ k, faultState t k = .active → (wcfg t).reactions.get k ≠ .stop)
         ∧ t.w.flt.alarmSet = [] ∧ t.w.panel.selector = .inspection
         ∧ (∀ p ∈ members t, ∃ r, stateOf p = some r ∧ showsHold r = false ∧ enclosureClosed r = true)
         ∧ (up = true ∨ down = true ∨ isOn t.w.panel.driveRunning = true)
         ∧ (up = true → down = false → t.w.seq.overwind.a ≠ .upper ∧ t.w.seq.overwind.b ≠ .lower)
         ∧ (down = true → up = false → t.w.seq.overwind.a ≠ .lower ∧ t.w.seq.overwind.b ≠ .upper))
  ∧ (∀ (c : Instr) (s t : State), exec c s = .next t → s.w.seq.permit = false → t.w.seq.permit = true →
       tripLevel t = false
         ∧ (∀ p ∈ members t, ∃ r, stateOf p = some r ∧ enclosureClosed r = true)
         ∧ (t.w.seq.wind = .inspection →
             ∃ up down, c = .inspectionDirection up down ∧ up ≠ down
               ∧ (up = true → isOn s.w.panel.up = false) ∧ (down = true → isOn s.w.panel.down = false)))

/-- A survey request in IDLE with the selector at SURVEY. It is taken where no record and no custodian is held, TRIP is
released, no kind is HELD, none under STOP or TRIP ACTIVE, every enclosure closed, no hold or ALARM stands, and R58's fixed
points exist: the start points with target present, the bottom point with its DOWN depth no deeper than its stop and deeper than
A's start. On a service winder A starts at level 0 and the bottom is the deepest landing with a cage stop; on a rock winder A
starts at its tipper and ends at its loader, B starts at its loader and ends at its tipper. Refused, it changes no more than the
indication; taken, every call leaves the list, DROPPED where the ANSWER queue has room and marked where it has none, the origin is
latched, K, history and the validated flag cleared, the learned tables emptied, the cage or both skips EMPTY, and it either
enters SURVEY under the MODE cap at the survey speed with each residual as Q, the start points' entries at their announced
figures and R60's lists with their pointers at the head, or is refused with REF_MISMATCH and stays IDLE. What REF_MISMATCH leaves in the other items (log 21), and of several
deepest landings the lowest node's (log 65) and the bottom and top points last in their lists (log 72, log 56), are the model's
choices, and so is the order in which the calls are answered DROPPED and marked, the list's own from its head (log 58); of
several points of a kind, which R54 makes CONFLICT, the lowest node's is looked at. -/
def Obligations.SurveyRequestStartsOrRefuses : Prop :=
  ∀ s : State, InWind s .idle → s.w.panel.selector = .survey → PeersSound s →
    (∀ q ∈ s.peers, ∀ g ∈ q.geometry, g.stop ≤ 4000000) →
    let service : Prop := (wcfg s).kind = .service
    let point (v : Conv) (want : Geometry → Prop) (n : Nat) (g : Geometry) : Prop :=
      ∃ q ∈ s.peers, q.node = n ∧ q.conflict = false ∧ geometryOf q (compOf s v) = some g ∧ g.fitted = true ∧ want g
    let announces (p : SurveyPoint) (n : Nat) (g : Geometry) : Prop :=
      p = { node := n, stop := g.stop, down := g.down, up := g.up }
    let kind (k : PointKind) (g : Geometry) : Prop := g.point = k
    let cageStop (g : Geometry) : Prop := g.hasLanding = true ∧ ∃ l, g.point = .landing l
    let lowest (v : Conv) (want : Geometry → Prop) (p : SurveyPoint) : Prop :=
      ∃ n g, point v want n g ∧ announces p n g ∧ ∀ m h, point v want m h → n ≤ m
    let deepest (p : SurveyPoint) : Prop :=
      ∃ n g, point .a cageStop n g ∧ announces p n g
        ∧ ∀ m h, point .a cageStop m h → h.stop < g.stop ∨ h.stop = g.stop ∧ n ≤ m
    let present (v : Conv) (p : SurveyPoint) : Prop :=
      ∃ r, stateOf (peerOf s p.node) = some r ∧ showsPresent r (compOf s v) = true
    let fixed (a z : SurveyPoint) (ends : Option (SurveyPoint × SurveyPoint)) : Prop :=
      (service → lowest .a (kind (.landing 0)) a ∧ deepest z ∧ ends = none)
        ∧ (¬service → lowest .a (kind .tipper) a ∧ lowest .a (kind .loader) z
            ∧ ∃ b y, ends = some (b, y) ∧ lowest .b (kind .loader) b ∧ lowest .b (kind .tipper) y ∧ present .b b)
        ∧ present .a a ∧ z.down ≤ z.stop ∧ a.down < z.down
    let ready : Prop :=
      s.w.seq.record = none ∧ s.w.seq.custodian = none ∧ tripLevel s = false ∧ (∀ k, faultState s k ≠ .held)
        ∧ (∀ k, faultState s k = .active →
            (wcfg s).reactions.get k = .slow ∨ (wcfg s).reactions.get k = .report)
        ∧ s.w.flt.alarmSet = []
        ∧ ∀ q ∈ members s, ∃ r, stateOf q = some r ∧ showsHold r = false ∧ enclosureClosed r = true
    (¬ready ∨ (∀ a z ends, ¬fixed a z ends) → ∃ t, exec .surveyRequest s = .next t
      ∧ Follows { s with w.panel.down := some true, w.panel.refusal := .survey } t)
    ∧ (ready → FaultsSettled s → ∀ a z ends, fixed a z ends →
        let start (v : Conv) : Int :=
          (conveyance s v).z + paidLength s v (conveyance s v).r
            + stretchOf s v .empty (paidLength s v (conveyance s v).r)
        let r : Conv → Int
          | .a => a.stop - start .a
          | .b => ends.elim 0 fun e => e.1.stop - start .b
        let entry (p : SurveyPoint) : Learned := { node := p.node, down := p.down, up := p.up, stop := p.stop }
        let matched : Prop :=
          (r .a).natAbs ≤ (wcfg s).surveyStartWindow ∧ (r .b).natAbs ≤ (wcfg s).surveyStartWindow
        ∃ t, exec .surveyRequest s = .next t
          ∧ t.w.panel.refusal = .none ∧ t.w.tr.k = ⟨0, 0⟩ ∧ t.w.tr.history = [] ∧ t.w.tr.validated = false
          ∧ (∀ e ∈ t.w.seq.list, e.mark.isSome = true)
          ∧ t.line.queue.answer =
              s.line.queue.answer
                ++ ((s.w.seq.list.filter fun e => e.mark.isNone).take (8 - s.line.queue.answer.length)).map droppedAnswer
          ∧ t.w.tr.cls.a = .empty ∧ t.w.tr.cls.b = (if (wcfg s).kind = .rock then .empty else s.w.tr.cls.b)
          ∧ SameNode s t ∧ t.l = s.l ∧ t.k = s.k
          ∧ (matched →
              t.w.seq.wind = .survey ∧ t.w.seq.survey.outcome = .inProgress ∧ t.w.seq.permit = true
                ∧ (∃ cap, t.w.env.capMode = some cap ∧ cap.value = (wcfg s).survey ∧ cap.flat = true)
                ∧ t.w.tr.origin = some { n0 := s.w.tr.nSample, q := ⟨r .a, r .b⟩ }
                ∧ t.w.seq.last = none ∧ t.w.seq.startTimer = some (1000 * (wcfg s).startWindow)
                ∧ t.w.tr.learned = ⟨[entry a], (ends.map fun e => entry e.1).toList⟩
                ∧ t.w.seq.survey.start = ⟨some a, ends.map (·.1)⟩ ∧ t.w.seq.survey.bottom = some z
                ∧ t.w.seq.survey.pointer = ⟨0, 0⟩
                ∧ (∃ way, t.w.seq.survey.lists.a = way ++ [z]
                    ∧ way.Pairwise (fun p q => p.down < q.down ∨ p.down = q.down ∧ p.node < q.node)
                    ∧ ∀ p, p ∈ way ↔ (∃ n g, point .a (fun _ => True) n g ∧ announces p n g) ∧ a.down < p.down ∧ p.down ≤ z.down
                        ∧ p.node ≠ z.node ∧ p.node ≠ a.node)
                ∧ (ends = none → t.w.seq.survey.lists.b = [])
                ∧ (∀ b y, ends = some (b, y) → ∃ way, t.w.seq.survey.lists.b = way ++ [y]
                    ∧ way.Pairwise (fun p q => q.up < p.up ∨ p.up = q.up ∧ p.node < q.node)
                    ∧ ∀ p, p ∈ way ↔ (∃ n g, point .b (fun _ => True) n g ∧ announces p n g) ∧ p.up < b.up ∧ y.up ≤ p.up
                        ∧ p.node ≠ y.node ∧ p.node ≠ b.node))
          ∧ (¬matched →
              t.w.seq.wind = .idle ∧ t.w.seq.survey.outcome = .refMismatch ∧ t.w.seq.permit = s.w.seq.permit
                ∧ t.w.tr.learned = ⟨[], []⟩ ∧ t.w.tr.origin = some { n0 := s.w.tr.nSample, q := ⟨0, 0⟩ }))

/-- A resume request that a condition refuses leaves the record and shows its reason, that of the first of R129's
conditions that fails: SELECTOR, COUNT, FAULT, CAUSE by what the record names, CONDITIONS by the start conditions or the
target away, NO_TARGET by R130's table. One that no condition refuses: a PARKED record becomes a restoration and the state IDLE; a MOVING record whose targets lie within tolerance is
discarded and the state IDLE; from IDLE the next call may start at once. Any other is resumed, its count rising, in
PREPARING under the RESUMED cap, its direction by the target and X_A, on a rock winder by which skip stands nearer the
loader's stop. Where one of these distances is not known, it follows the target points by the model's reading
(log 16). NEAREST_AHEAD and NEAREST_BACK take the level of the eligible stop nearest to X_A, at equal distance the lower one.
That SAME takes no target at a CONFLICT point is read from the manual by inference (log 30); that of several landings which
announce the level the lowest node's is looked at is the model's choice (log 29). -/
def Obligations.ResumeIsRefusedOrStartsTheLeg : Prop :=
  (∀ (s : State) (a b c : Bool) (d : Record) (x : ResumeReason), InWind s .suspended → s.w.seq.record = some d →
     resumeRefusal s d (resumePosition a b c) = some x →
     ∃ t, exec (.resumeRequest a b c) s = .next t ∧ t.w.seq.record = some d ∧ t.w.panel.refusal = .resume x
       ∧ Follows { s with w.panel.refusal := .resume x } t
       ∧ (s.w.panel.selector ≠ .normal → x = .selector)
       ∧ (s.w.panel.selector = .normal → 3 ≤ countOf d.kind → x = .count)
       ∧ (s.w.panel.selector = .normal → countOf d.kind < 3 → (tripLevel s || anyHeld s) = true → x = .fault))
  ∧ (∀ (s : State) (d : Record) (pos : ResumePosition), s.w.panel.selector = .normal → countOf d.kind < 3 →
       (tripLevel s || anyHeld s) = false →
       let shut (p : Peer) : Prop := ∃ r, stateOf p = some r ∧ showsHold r = false ∧ enclosureClosed r = true
       let gone : Prop :=
         match d.cause with
         | .fault k => faultState s k = .clear
         | .node n => shut (peerOf s n)
         | .driveLost => isOn s.w.panel.driveRunning = false
         | .selector => True
       let lower (x : Int) (l : Nat) (t : Int) (l' : Nat) (t' : Int) : Prop :=
         (t - x).natAbs < (t' - x).natAbs ∨ (t - x).natAbs = (t' - x).natAbs ∧ l ≤ l'
       let fit : Prop :=
         (∀ k, faultState s k = .active → (wcfg s).reactions.get k ≠ .stop) ∧ s.w.tr.validated = true
           ∧ s.w.flt.alarmSet = [] ∧ ∀ p ∈ members s, shut p
       let away (p : Peer) : Prop :=
         statusOf p = .silent ∨ ∃ r, stateOf p = some (.landing r) ∧ r.outOfService = true
       let known (c : Conv) (p : Peer) (n : Nat) : Prop := p.conflict = false ∧ (learnedOf s c n).isSome = true
       let stop (dir : Dir) (p : Peer) (l : Nat) (t x : Int) : Prop :=
         ∃ g, geometryOf p (wcfg s).comps.a = some g ∧ g.point = .landing l ∧ g.hasLanding = true
           ∧ statusOf p ≠ .conflict ∧ ¬away p ∧ (s.w.tr.cls.a = .men → g.servesMen = true)
           ∧ stopDepth s .a p.node = some t ∧ s.w.tr.x.a = some x
           ∧ ((wcfg s).creepDist + (wcfg s).tol : Int) ≤ (t - x) * dir.sign
       let eligible (dir : Dir) (p : Peer) : Prop := ∃ l t x, stop dir p l t x
       (¬gone → resumeRefusal s d pos = some .cause)
       ∧ (gone → ¬fit → resumeRefusal s d pos = some .conditions)
       ∧ (∀ p, gone → fit → d.kind = .parked p → resumeRefusal s d pos = none)
       ∧ (∀ m, gone → fit → d.kind = .moving m →
           (pos = .invalid → resumeRefusal s d pos = some .noTarget)
           ∧ ((wcfg s).kind = .rock → pos = .nearestAhead ∨ pos = .nearestBack →
               resumeRefusal s d pos = some .noTarget)
           ∧ (∀ l, pos = .same → m.target = .level l →
               (∀ p, landingAt s (wcfg s).comps.a l = some p →
                 (away p → resumeRefusal s d pos = some .conditions)
                 ∧ (¬away p → known .a p p.node → resumeRefusal s d pos = none)
                 ∧ (¬away p → ¬known .a p p.node → resumeRefusal s d pos = some .noTarget))
               ∧ (landingAt s (wcfg s).comps.a l = none → resumeRefusal s d pos = some .noTarget))
           ∧ (∀ q, pos = .same → m.target = .points q →
               let silent (n : Nat) : Prop := statusOf (peerOf s n) = .silent
               let formed : Prop := known .a (peerOf s q.a) q.a ∧ known .b (peerOf s q.b) q.b
               (silent q.a ∨ silent q.b → resumeRefusal s d pos = some .conditions)
               ∧ (¬silent q.a → ¬silent q.b → formed → resumeRefusal s d pos = none)
               ∧ (¬silent q.a → ¬silent q.b → ¬formed → resumeRefusal s d pos = some .noTarget))
           ∧ (∀ dir, (pos = .nearestAhead ∧ dir = m.dir ∨ pos = .nearestBack ∧ dir = m.dir.opposite) →
               ((∀ p ∈ s.peers, ¬eligible dir p) → resumeRefusal s d pos = some .noTarget)
               ∧ (∀ p l t x, (wcfg s).kind = .service → p ∈ s.peers → stop dir p l t x →
                   (∀ q ∈ s.peers, ∀ l' t', stop dir q l' t' x → l' ≤ 31 ∧ lower x l t l' t') →
                   formTarget s m pos = some (.level l)
                     ∧ (landingAt s (wcfg s).comps.a l = some p → resumeRefusal s d pos = none)))))
  ∧ (∀ (s : State) (a b c : Bool) (d : Record), InWind s .suspended → s.w.seq.custodian = none → FaultsSettled s →
       s.w.seq.record = some d → resumeRefusal s d (resumePosition a b c) = none →
       ∃ t, exec (.resumeRequest a b c) s = .next t ∧ t.w.panel.refusal = .none
         ∧ SameNode s t ∧ t.l = s.l ∧ t.k = s.k
         ∧ (∀ p, d.kind = .parked p → t.w.seq.record = none ∧ t.w.seq.restoration = some (p.custodian, p.level)
             ∧ (t.w.seq.wind = .idle ∨ t.w.seq.wind = .preparing) ∧ (s.w.seq.list = [] → t.w.seq.wind = .idle))
         ∧ (∀ m, d.kind = .moving m → ∃ x, formTarget s m (resumePosition a b c) = some x
             ∧ (atTargets s (targetDepths s x) = true → t.w.seq.record = none
                 ∧ (t.w.seq.wind = .idle ∨ t.w.seq.wind = .preparing) ∧ (s.w.seq.list = [] → t.w.seq.wind = .idle))
             ∧ (atTargets s (targetDepths s x) = false →
                 t.w.seq.wind = .preparing ∧ t.w.seq.permit = true ∧ t.w.seq.slot = m.calls
                   ∧ (∃ cap, t.w.env.capResumed = some cap ∧ cap.value = (wcfg s).inspection ∧ cap.flat = true)
                   ∧ (∃ g, t.w.seq.leg = some g ∧ g.kind = .resume ∧ g.target = targetDepths s x
                       ∧ (∀ l e xa, x = .level l → (targetDepths s x).a = some e → s.w.tr.x.a = some xa →
                           g.dir = if xa < e then .down else .up)
                       ∧ (∀ q, x = .points q →
                           let loader : Nat := if (peerOf s q.b).role = .point .loader then q.b else q.a
                           (∀ da db xa xb, stopDepth s .a loader = some da → stopDepth s .b loader = some db →
                             s.w.tr.x.a = some xa → s.w.tr.x.b = some xb →
                             g.dir = if (da - xa).natAbs < (db - xb).natAbs then .up else .down)
                           ∧ ((∃ c, stopDepth s c loader = none ∨ s.w.tr.x.get c = none) →
                               g.dir = if loader = q.a then .down else .up)))
                   ∧ t.w.seq.record =
                       some { d with kind := .moving { m with target := x, count := m.count + 1, inProgress := true } })))

/-- CANCEL: in IDLE every entry leaves the list, answered DROPPED where the ANSWER queue has room and marked where it has
none, and the lockout is cleared; that the entries are taken head first is the model's choice (log 58). In SUSPENDED the
record is discarded with a DROPPED answer to each of its calls, of a pair's the loader's first by the model's choice (log 58),
and the state is IDLE, from which the next call may start;
or both are kept where the ANSWER queue has no room for them. The wind state is said of states in which the reference
and PERMIT stand as `ReferenceAndPermitSafeKept` keeps them, the reference 0 in IDLE and SUSPENDED. -/
def Obligations.CancelDropsCalls : Prop :=
  ∀ s : State,
    (InWind s .idle → ∃ t, exec .cancel s = .next t ∧ t.w.panel.refusal = .none ∧ t.w.seq.lockout = false
      ∧ (∀ e ∈ t.w.seq.list, e.mark.isSome = true)
      ∧ t.line.queue.answer =
          s.line.queue.answer
            ++ ((s.w.seq.list.filter fun e => e.mark.isNone).take (8 - s.line.queue.answer.length)).map droppedAnswer
      ∧ (ReferenceSafe s → PermitPlaced s → tripLevel t = false → s.w.panel.selector ≠ .inspection →
          t.w.seq.wind = .idle)
      ∧ SameNode s t ∧ t.l = s.l ∧ t.k = s.k)
    ∧ (InWind s .suspended → s.w.seq.custodian = none →
        ∃ t, exec .cancel s = .next t ∧ SameNode s t ∧ t.l = s.l ∧ t.k = s.k
          ∧ (s.line.queue.answer.length + (recordCalls s.w.seq.record).length ≤ 8 →
              t.w.seq.record = none ∧ t.w.panel.refusal = .none
                ∧ (t.w.seq.wind = .idle ∨ t.w.seq.wind = .preparing ∨ t.w.seq.wind = .inspection
                  ∨ t.w.seq.wind = .tripped)
                ∧ (ReferenceSafe s → PermitPlaced s → tripLevel t = false → s.w.panel.selector ≠ .inspection →
                    (t.w.seq.wind = .idle ∨ t.w.seq.wind = .preparing) ∧ (s.w.seq.list = [] → t.w.seq.wind = .idle))
                ∧ ∃ more, t.line.queue.answer =
                    s.line.queue.answer ++ (recordCalls s.w.seq.record).map droppedAnswer ++ more)
          ∧ (8 < s.line.queue.answer.length + (recordCalls s.w.seq.record).length →
              t.w.seq.record = s.w.seq.record ∧ t.w.panel.refusal = .cancel
                ∧ t.line.queue.call = s.line.queue.call
                ∧ (ReferenceSafe s → PermitPlaced s → tripLevel t = false → s.w.panel.selector ≠ .inspection →
                    t.w.seq.wind = .suspended ∧ t.line.queue.answer = s.line.queue.answer)))

/-- A fault reset: HELD kinds become CLEAR, and the power-up trip, the lockout and the refusal indication are cleared; no
more comes of it than what follows from the levels that then stand. TRIPPED, with the fault states up to date and no stall
raised, is left where TRIP is then released, for SUSPENDED with a record and IDLE without, from which the next call may
start; the record, the survey, the learned tables and the validated flag stay, and but for such a start the list and
custody. In any other state on whose levels no rule acts the sequencer, lockout apart, stays with them. -/
def Obligations.FaultResetClearsHeldKinds : Prop :=
  ∀ s : State, Runs s .winder → s.w.seq.wind ≠ .starting → s.w.seq.wind ≠ .faulted →
    ∃ t, exec .faultReset s = .next t
      ∧ t.w.flt.powerUpTrip = false ∧ t.w.seq.lockout = false ∧ t.w.panel.refusal = .none
      ∧ (∀ k, faultState s k = .held → condition s k = false → faultState t k = .clear)
      ∧ (s.w.seq.wind = .tripped → FaultsSettled s → s.w.tr.stallRaised = false → tripLevel t = false →
          t.w.seq.wind ≠ .tripped
            ∧ (s.w.panel.selector ≠ .inspection →
                (s.w.seq.record.isSome = true → t.w.seq.wind = .suspended)
                ∧ (s.w.seq.record = none → t.w.seq.wind = .idle ∨ t.w.seq.wind = .preparing)))
      ∧ (s.w.seq.wind = .tripped → FaultsSettled s → s.w.tr.stallRaised = false →
          t.w.seq.record = s.w.seq.record ∧ t.w.seq.survey = s.w.seq.survey ∧ t.w.tr.learned = s.w.tr.learned
            ∧ t.w.tr.validated = s.w.tr.validated
            ∧ (t.w.seq.wind = .tripped ∨ t.w.seq.wind = .suspended ∨ t.w.seq.wind = .idle ∧ s.w.seq.list = [] →
                t.w.seq.list = s.w.seq.list ∧ t.w.seq.custodian = s.w.seq.custodian ∧ t.w.seq.last = s.w.seq.last))
      ∧ (s.w.seq.wind ≠ .tripped → NothingDue s →
          t.w.seq = { s.w.seq with lockout := false } ∧ t.w.tr.learned = s.w.tr.learned
            ∧ t.w.tr.validated = s.w.tr.validated ∧ t.w.env.refSpeed = s.w.env.refSpeed)
      ∧ Follows { s with w.flt.powerUpTrip := false, w.panel.refusal := .none } t

/-! ## Delivered frames -/

/-- Every kind of delivered frame is heard from its sender: the entry is PRESENT and its silence timer restarts; no
other entry's heard state, role, geometry or snapshot changes. A silence timer running out makes its peer SILENT with the
timer stopped, and leaves every other entry. -/
def Obligations.HearingAndSilenceMoveTheEntry : Prop :=
  (∀ (c : Instr) (n : Nat) (s : State), deliveredFrom c = some n → HeardFrom s n →
     ∃ t, exec c s = .next t
       ∧ (peerOf t n).heard = .present ∧ (peerOf t n).silence = some (100 * s.config.silenceTimeout)
       ∧ (∀ m, m ≠ n → (peerOf t m).heard = (peerOf s m).heard ∧ (peerOf t m).silence = (peerOf s m).silence
           ∧ (peerOf t m).role = (peerOf s m).role ∧ (peerOf t m).geometry = (peerOf s m).geometry
           ∧ (peerOf t m).snapshot = (peerOf s m).snapshot)
       ∧ t.step = s.step ∧ t.cfg = s.cfg ∧ t.clock = s.clock ∧ t.pending = s.pending ∧ t.line.mode = s.line.mode
       ∧ t.line.attempt = s.line.attempt)
  ∧ (∀ (s : State) (n : Nat), (s.step = .listen ∨ s.step = .run) → (peerOf s n).silence.isSome = true →
       ∃ t, exec (.silenceTimeout n) s = .next t
         ∧ peerOf t n = { peerOf s n with heard := .silent, silence := none }
         ∧ (∀ m, m ≠ n → peerOf t m = peerOf s m) ∧ Follows { s with peers := t.peers } t)

/-- A delivered frame that carries the node's own number, with no attempt of the node's own running: FAULTED, the line
controller DISABLED and emptied; at a winder TRIP is asserted, PERMIT withdrawn, custody ended, the stall timer stopped
and a survey in progress ABORTED. While an attempt runs the frame is noted and nothing more, and the attempt's end then
brings FAULTED. What FAULTED leaves in the timers and the record, and that it waits for the attempt's end whatever the
delivery command, are read from the manual by inference (log 28, log 41, log 44). -/
def Obligations.OwnNumberHeardFaults : Prop :=
  (∀ (c : Instr) (s : State), deliveredFrom c = some s.config.node → Receives s →
     WellFormed.nodeOk s.config.node = true →
     (s.line.attempt.isSome = true → ∃ t, exec c s = .next t ∧ Follows { s with line.heardOwn := true } t)
     ∧ (s.line.attempt = none → ∃ t, exec c s = .next t
         ∧ t.step = .faulted ∧ t.line.mode = .disabled ∧ t.line.queue = PowerUp.queue ∧ t.line.rxMarkers = []
         ∧ t.peers = s.peers ∧ t.l = s.l ∧ t.k = s.k ∧ t.cfg = s.cfg
         ∧ t.pins = { PowerUp.pins with lampFault := .steady }
         ∧ (hasRole s .winder = false → t.w = s.w)
         ∧ (hasRole s .winder = true →
             t.w.seq.wind = .faulted ∧ t.w.seq.permit = false ∧ t.w.env.refSpeed = 0 ∧ t.w.env.refDir = .none
               ∧ t.w.seq.custodian = none ∧ t.w.seq.last = none ∧ t.w.seq.releaseHold = none
               ∧ faultState t .duplicateNode = .active ∧ t.w.flt.tripCause = .fault .duplicateNode
               ∧ t.w.sampleTimer = none ∧ t.w.tr.stall = none ∧ t.w.tr.x = s.w.tr.x ∧ t.w.tr.v = s.w.tr.v
               ∧ (surveying s = true → t.w.seq.survey.outcome = .aborted ∧ t.w.tr.validated = false
                   ∧ t.w.tr.learned = ⟨[], []⟩)
               ∧ (surveying s = false → t.w.seq.survey = s.w.seq.survey ∧ t.w.tr.learned = s.w.tr.learned))))
  ∧ (∀ (s : State) (e : AttemptEnding), s.line.attempt.isSome = true → s.line.heardOwn = true →
       ∃ t, exec (.attemptEnd e) s = .next t
         ∧ t.step = .faulted ∧ t.line.mode = .disabled ∧ t.line.attempt = none ∧ t.line.heardOwn = false
         ∧ t.line.queue = PowerUp.queue ∧ t.peers = s.peers ∧ t.cfg = s.cfg
         ∧ t.pins = { PowerUp.pins with lampFault := .steady }
         ∧ (hasRole s .winder = true → t.w.seq.wind = .faulted ∧ t.w.seq.permit = false
             ∧ t.w.seq.custodian = none ∧ faultState t .duplicateNode = .active))

/-- An ALARM frame whose mask covers a compartment of the winder enters its sender into the alarm set, and under
TRIP_LATCHED asserts TRIP; any other leaves the set.
What a trip does to the wind it interrupts, shown at the trip that an ALARM frame asserts: TRIPPED, PERMIT withdrawn, the
slot empty and the calls that wait kept. A CALL or PAIR leg of PREPARING, RUNNING or STOPPING leaves a MOVING record with
the trip's cause, the phase (STOPPING in STOPPING, CREEP before the first sample in PREPARING), X and v of the latest sample,
the slot's calls, the leg's direction, a resume target by its calls, and count 0; a RESUME leg is re-captured with its calls,
target and count kept. IDLE with a custodian named leaves a PARKED record of it and its parked level, and custody ends;
without one, and in SUSPENDED and INSPECTION, a record stays as it is. -/
def Obligations.AlarmFrameTripsAndCaptures : Prop :=
  (∀ (s : State) (n : Nat) (mask : BitVec 4), HeardFrom s n → Tracks s →
     ∃ t, exec (.alarmFrame n mask) s = .next t
       ∧ (coversWinder s mask = true → n ∈ t.w.flt.alarmSet
           ∧ (∀ m, m ≠ n → (m ∈ t.w.flt.alarmSet ↔ m ∈ s.w.flt.alarmSet))
           ∧ ((wcfg s).reactions.alarm = .tripLatched → t.pins.trip = true ∧ t.pins.permit = false))
       ∧ (coversWinder s mask = false → t.w.flt.alarmSet = s.w.flt.alarmSet)
       ∧ t.l = s.l ∧ t.k = s.k ∧ calmWinder t.w = calmWinder { s.w with flt.alarmSet := t.w.flt.alarmSet })
  ∧ (∀ (s : State) (n : Nat) (mask : BitVec 4), HeardFrom s n → Runs s .winder → coversWinder s mask = true →
       (wcfg s).reactions.alarm = .tripLatched → FaultsSettled s → tripLevel s = false → s.w.flt.trip = false →
       s.w.seq.wind ≠ .starting → s.w.seq.wind ≠ .tripped → s.w.seq.wind ≠ .faulted →
       ∃ t, exec (.alarmFrame n mask) s = .next t
         ∧ t.w.seq.wind = .tripped ∧ t.w.seq.permit = false ∧ t.w.env.refSpeed = 0 ∧ t.w.env.refDir = .none
         ∧ t.w.flt.tripCause = .fault .alarm ∧ t.w.seq.leg = none ∧ t.w.seq.lockout = s.w.seq.lockout
         ∧ (∀ g, (s.w.seq.wind = .preparing ∨ s.w.seq.wind = .running ∨ s.w.seq.wind = .stopping) →
             s.w.seq.leg = some g →
             t.w.seq.slot = [] ∧ t.w.seq.list = s.w.seq.list ∧ t.w.seq.custodian = s.w.seq.custodian
               ∧ ∃ r m, t.w.seq.record = some r ∧ r.cause = .fault .alarm ∧ r.x = s.w.tr.x ∧ r.v = s.w.tr.v
                   ∧ (s.w.seq.wind = .stopping → r.phase = .stopping)
                   ∧ (s.w.seq.wind = .running → r.phase = s.w.env.phase)
                   ∧ (s.w.seq.wind = .preparing → r.phase = if s.w.env.acc.isNone then .creep else s.w.env.phase)
                   ∧ r.kind = .moving m ∧ m.dir = g.dir ∧ m.inProgress = false
                   ∧ (g.kind ≠ .resume → m.calls = s.w.seq.slot ∧ m.count = 0
                       ∧ (∀ c, s.w.seq.slot = [c] → m.target = .level (c.dest.getD c.level))
                       ∧ (∀ x y, s.w.seq.slot = [x, y] → m.target =
                           .points (if convOf s x.comp = some .b then ⟨x.origin, y.origin⟩
                             else ⟨y.origin, x.origin⟩)))
                   ∧ (∀ d k, g.kind = .resume → s.w.seq.record = some d → d.kind = .moving k →
                       m.calls = k.calls ∧ m.count = k.count ∧ m.target = k.target))
         ∧ (∀ c l q, s.w.seq.wind = .idle → s.w.seq.custodian = some c → s.w.seq.parked = some (l, q) →
             t.w.seq.record =
                 some { cause := .fault .alarm, phase := .none, x := s.w.tr.x, v := s.w.tr.v
                        kind := .parked { level := l, custodian := c } }
               ∧ t.w.seq.custodian = none ∧ t.w.seq.last = s.w.seq.last)
         ∧ (s.w.seq.wind = .idle ∧ s.w.seq.custodian = none ∨ s.w.seq.wind = .suspended ∨ s.w.seq.wind = .inspection →
             t.w.seq.record = s.w.seq.record ∧ t.w.seq.list = s.w.seq.list)
         ∧ t.l = s.l ∧ t.k = s.k)

/-- A located pass of a learned point, outside SURVEY: K takes the deviation where it and the new K lie within their
limits, and otherwise TRACKING is raised; an admitted pass that cannot be located (an age of 250 ms or more, too short a
history, an entry with X unknown or direction NONE) and one that R17 ignores leave K and the rest of the track. In RUNNING an admitted
pass of the expected point while it is armed moves the expectation on, and any other leaves it. At a sample in RUNNING or STOPPING
the expectation of a point that is not skipped is armed from 2 × marker window before its depth; more than that beyond it
MARKER_MISSED is raised. The next expected point is the nearest learned one ahead that is not skipped. By the model's
choice an expectation met beyond its depth is armed (log 48), a pass outside SURVEY corrects K from the moment the validated
flag is yes, in IDLE and INSPECTION before the next leg too, with which R66 has correction begin (log 57), and a point that
was skipped between two samples alone keeps the expectation (log 63). A RESUMED cap stays in force through the states of
its leg until such a correction is accepted, by a MARKER frame delivered at once or at its delivery moment, and is lifted there;
outside a resumed leg there is none to lift. RUNNING is entered at a sample in PREPARING alone, with each conveyance's expectation
at the next expected point ahead of its X; no expectation is left once RUNNING and STOPPING are left. That ahead is strict, and that the expectation moves on
from the depth D of the point it leaves, is read from the manual by inference (log 33). -/
def Obligations.MarkerFrameCorrectsK : Prop :=
  (∀ (s : State) (n comp age : Nat), HeardFrom s n → hasRole s .winder = true → s.w.seq.wind ≠ .survey →
     ∃ t, exec (.markerFrame n comp age) s = .next t
       ∧ (convOf s comp = none → calmWinder t.w = calmWinder s.w)
       ∧ (∀ c, convOf s comp = some c →
           (s.w.tr.validated = false ∨ (peerOf s n).conflict = true ∨ learnedOf s c n = none →
             calmWinder t.w = calmWinder s.w
               ∧ (s.w.seq.wind = .running → t.w.seq.wind = .running → t.w.tr.expect = s.w.tr.expect))
           ∧ (∀ e h x, s.w.tr.validated = true → (peerOf s n).conflict = false → learnedOf s c n = some e →
               age < 250 → s.w.tr.history[(age + 6) / 2]? = some h → h.x = some x → h.dir.get c ≠ .none →
               let d := (if h.dir.get c = .up then e.up else e.down) - (x.get c + s.w.tr.k.get c)
               (d.natAbs ≤ (wcfg s).markerWindow ∧ (s.w.tr.k.get c + d).natAbs ≤ (wcfg s).correctionLimit →
                 calmWinder t.w = calmWinder { s.w with tr.k := s.w.tr.k.set c (s.w.tr.k.get c + d) })
               ∧ (¬(d.natAbs ≤ (wcfg s).markerWindow ∧ (s.w.tr.k.get c + d).natAbs ≤ (wcfg s).correctionLimit) →
                 calmWinder t.w = calmWinder { s.w with flt.raised := s.w.flt.raised.set .tracking true }))
           ∧ (s.w.tr.validated = true → (peerOf s n).conflict = false → (learnedOf s c n).isSome = true →
               (250 ≤ age ∨ s.w.tr.history[(age + 6) / 2]? = none
                 ∨ ∃ h, s.w.tr.history[(age + 6) / 2]? = some h ∧ (h.x = none ∨ h.dir.get c = .none)) →
               calmWinder t.w = calmWinder s.w)
           ∧ (s.w.tr.validated = true → (peerOf s n).conflict = false → (learnedOf s c n).isSome = true →
               s.w.seq.wind = .running → t.w.seq.wind = .running →
               t.w.tr.expect.get c.other = s.w.tr.expect.get c.other
                 ∧ (∀ y, s.w.tr.expect.get c = some y → y.node = n → y.armed = true →
                     t.w.tr.expect.get c = nextExpected (hear n s) c y.depth)
                 ∧ ((s.w.tr.expect.get c).all (fun y => y.node != n || !y.armed) = true →
                     t.w.tr.expect.get c = s.w.tr.expect.get c)))
       ∧ t.l = s.l ∧ t.k = s.k)
  ∧ (∀ s : State, (InWind s .running ∨ InWind s .stopping) → s.w.sampleTimer.isSome = true →
       ∃ t, exec .positionSample s = .next t
         ∧ (∀ c y x, s.w.tr.expect.get c = some y → t.w.tr.x.get c = some x → expectationGone s c y = false →
             let beyond : Int := (x - y.depth) * (dirFor c (legDir s)).sign
             (beyond ≤ 2 * (wcfg s).markerWindow → t.w.seq.wind = .running ∨ t.w.seq.wind = .stopping →
               t.w.tr.expect.get c =
                 some { y with armed := y.armed || decide (-(2 * (wcfg s).markerWindow : Int) ≤ beyond) })
             ∧ (2 * (wcfg s).markerWindow < beyond → t.w.flt.raised.markerMissed = true))
         ∧ ((∀ c y, s.w.tr.expect.get c = some y → expectationGone s c y = false
               ∧ ∀ x, t.w.tr.x.get c = some x →
                   (x - y.depth) * (dirFor c (legDir s)).sign ≤ 2 * (wcfg s).markerWindow) →
             t.w.flt.raised.markerMissed = false))
  ∧ (∀ (s : State) (c : Conv) (d : Int),
       let dir := dirFor c (legDir s)
       let at' (e : Learned) : Int := if dir = .up then e.up else e.down
       let ahead (e : Learned) : Prop :=
         e ∈ s.w.tr.learned.get c ∧ 0 < (at' e - d) * dir.sign ∧ isSkipped s c e.node = false
       (∀ y, nextExpected s c d = some y → y.armed = false
         ∧ ∃ e, ahead e ∧ y.node = e.node ∧ y.depth = at' e
             ∧ ∀ f, ahead f → (at' e - d).natAbs ≤ (at' f - d).natAbs)
       ∧ (nextExpected s c d = none → ∀ e, ¬ahead e))
  ∧ (∀ (i : Instr) (s t : State), exec i s = .next t → s.step ≠ .config →
       (s.w.seq.wind ≠ .running → t.w.seq.wind = .running →
         i = .positionSample ∧ s.w.seq.wind = .preparing
           ∧ ∀ c, t.w.tr.expect.get c = (t.w.tr.x.get c).bind (nextExpected s c))
       ∧ (s.w.seq.wind = .running ∨ s.w.seq.wind = .stopping → t.w.seq.wind ≠ .running → t.w.seq.wind ≠ .stopping →
           t.w.tr.expect = ⟨none, none⟩))
  ∧ (∀ (i : Instr) (s t : State),
       let underWay (u : State) : Prop :=
         Runs u .winder ∧ inResumedLeg u = true
           ∧ (u.w.seq.wind = .preparing ∨ u.w.seq.wind = .running ∨ u.w.seq.wind = .stopping)
       let confirms (n comp age : Nat) : Prop :=
         HeardFrom s n ∧ s.w.tr.validated = true ∧ (peerOf s n).conflict = false ∧ age < 250
           ∧ ∃ c e h x, convOf s comp = some c ∧ learnedOf s c n = some e ∧ s.w.tr.history[(age + 6) / 2]? = some h
               ∧ h.x = some x ∧ h.dir.get c ≠ .none
               ∧ (let d := (if h.dir.get c = .up then e.up else e.down) - (x.get c + s.w.tr.k.get c)
                  d.natAbs ≤ (wcfg s).markerWindow ∧ (s.w.tr.k.get c + d).natAbs ≤ (wcfg s).correctionLimit)
       let confirming : Prop :=
         (∃ n comp age, i = .markerFrame n comp age ∧ confirms n comp age)
           ∨ i = .markerDeliveryMoment ∧ ∃ m rest, s.line.rxMarkers = m :: rest ∧ confirms m.sender m.comp m.age
       exec i s = .next t → underWay s → underWay t →
         (confirming → t.w.env.capResumed = none)
         ∧ (¬confirming → t.w.env.capResumed = s.w.env.capResumed))

/-- A pass in SURVEY: from a point that is not the pointer's the survey fails ORDER; from the pointer's, located within the
survey window of its announced depth, it is recorded, the learned depth in the survey's direction the located one and the others
the announced distances from it, in a place of the table that the model chooses (log 20), and the pointer moves on, else the survey
fails DEVIATION; not located it is not taken. One of a compartment not the
winder's, from a CONFLICT point, from the start point, or with the pointer exhausted, as the counterweight's always is, is
ignored. A sample that finds a conveyance beyond its pointer's announced marker depth by more than the survey window fails
it MISSING, by the model's reading whatever the fault states of that sample bring (log 10), and by its choice naming A's
point where both are beyond (log 62). ABORTED: the selector leaving SURVEY, drive RUNNING lost before the completion flag,
the start window run out, a kind under STOP or TRIP by an ALARM frame, a stall or a silence, a STATE of a point of the
compartments that shows STOP_HOLD, an open enclosure or such a GATE_BREACH, and an ANNOUNCE that changes a depth or the
marker-fitted flag of a survey point, adds a marker-fitted point, or makes a survey point CONFLICT, a point of a list or a
start point as the model reads it (log 79). A failed survey leads to TRIPPED with TRIP asserted, to STOPPING while drive RUNNING
is active, and otherwise to IDLE with PERMIT withdrawn, and makes no record (`SurveyFailed`). After any command a
survey in progress has none of these kinds ACTIVE, TRIP released, the selector at SURVEY and no such report. -/
def Obligations.SurveyPassIsJudged : Prop :=
  (∀ (s : State) (n comp age : Nat) (c : Conv) (p : SurveyPoint), HeardFrom s n → InWind s .survey →
     surveying s = true → convOf s comp = some c → pointerPoint s.w.seq.survey c = some p →
     (peerOf s n).conflict = false → ((s.w.seq.survey.start.get c).any fun q => q.node == n) = false →
     ∃ t, exec (.markerFrame n comp age) s = .next t
       ∧ (p.node ≠ n → t.w.seq.survey.outcome = .order ∧ t.w.seq.survey.failing = some (n, c)
           ∧ t.w.tr.validated = false ∧ t.w.tr.learned = ⟨[], []⟩ ∧ SurveyFailed s t)
       ∧ (∀ h x, p.node = n → age < 250 → s.w.tr.history[(age + 6) / 2]? = some h → h.x = some x →
           h.dir.get c = (match c with | .a => .down | .b => .up) →
           let depth : Int := x.get c
           let announced : Int :=
             match c with
             | .a => p.down
             | .b => p.up
           let entry : Learned :=
             match c with
             | .a => { node := n, down := depth, up := depth + (p.up - p.down), stop := depth + (p.stop - p.down) }
             | .b =>
               { node := n, up := depth, down := depth + (p.down - p.up)
                 stop := depth + (p.down - p.up) + (p.stop - p.down) }
           ((depth - announced).natAbs ≤ (wcfg s).surveyWindow →
             t.w.seq.survey.outcome = .inProgress →
             t.w.seq.survey.pointer.get c = s.w.seq.survey.pointer.get c + 1
               ∧ t.w.tr.learned.get c = putLearned entry (s.w.tr.learned.get c)
               ∧ t.w.tr.learned.get c.other = s.w.tr.learned.get c.other)
           ∧ ((wcfg s).surveyWindow < (depth - announced).natAbs →
             t.w.seq.survey.outcome = .deviation ∧ t.w.seq.survey.failing = some (n, c)
               ∧ t.w.tr.validated = false ∧ t.w.tr.learned = ⟨[], []⟩ ∧ SurveyFailed s t))
       ∧ t.l = s.l ∧ t.k = s.k)
  ∧ (∀ (s : State) (n comp age : Nat), HeardFrom s n → InWind s .survey → surveying s = true →
       (convOf s comp = none
         ∨ (∃ c, convOf s comp = some c
             ∧ ((peerOf s n).conflict = true ∨ (∃ q, s.w.seq.survey.start.get c = some q ∧ q.node = n)
               ∨ pointerPoint s.w.seq.survey c = none
               ∨ ∃ p, pointerPoint s.w.seq.survey c = some p ∧ p.node = n
                   ∧ (250 ≤ age ∨ s.w.tr.history[(age + 6) / 2]? = none
                     ∨ ∃ h, s.w.tr.history[(age + 6) / 2]? = some h
                         ∧ (h.x = none ∨ h.dir.get c ≠ (match c with | .a => .down | .b => .up)))))) →
       s.w.panel.selector = .survey → FaultsSettled s → strongActive s = false → reportedBar s = none →
       tripLevel s = false →
       ∃ t, exec (.markerFrame n comp age) s = .next t ∧ t.w.seq.survey = s.w.seq.survey ∧ t.w.seq.wind = .survey
         ∧ t.w.tr.learned = s.w.tr.learned ∧ t.w.tr.validated = s.w.tr.validated ∧ t.w.tr.k = s.w.tr.k
         ∧ t.l = s.l ∧ t.k = s.k)
  ∧ (∀ s : State, InWind s .survey → surveying s = true → s.w.sampleTimer.isSome = true →
       let window : Int := (wcfg s).surveyWindow
       ∃ t, exec .positionSample s = .next t
         ∧ (let deepA (p : SurveyPoint) : Prop := ∃ x, t.w.tr.x.a = some x ∧ p.down + window < x
            let shallowB (p : SurveyPoint) : Prop := ∃ x, t.w.tr.x.b = some x ∧ x < p.up - window
            let missed (p : SurveyPoint) (c : Conv) : Prop :=
              t.w.seq.survey.outcome = .missing ∧ t.w.seq.survey.failing = some (p.node, c)
                ∧ t.w.tr.validated = false ∧ t.w.tr.learned = ⟨[], []⟩ ∧ SurveyFailed s t
            (∀ p, pointerPoint s.w.seq.survey .a = some p → deepA p → missed p .a)
            ∧ ((∀ p, pointerPoint s.w.seq.survey .a = some p → ¬deepA p) →
                (∀ p, pointerPoint s.w.seq.survey .b = some p → shallowB p → missed p .b)
                ∧ ((∀ p, pointerPoint s.w.seq.survey .b = some p → ¬shallowB p) →
                    t.w.seq.survey.outcome = .inProgress ∨ t.w.seq.survey.outcome = .aborted))))
  ∧ (∀ (s : State) (c : Instr), InWind s .survey → surveying s = true →
       let strong (k : FaultKind) : Prop :=
         (wcfg s).reactions.get k = .stop ∨ (wcfg s).reactions.get k = .tripAuto
           ∨ (wcfg s).reactions.get k = .tripLatched
       let surveyed (n : Nat) : Prop := ∃ v, inSurvey s.w.seq.survey v n = true
       (c = .driveRunningChange false ∧ isOn s.w.panel.driveRunning = true ∧ s.w.env.completion = false
         ∨ c = .startTimerExpiry ∧ s.w.seq.startTimer.isSome = true
         ∨ c = .stallTimerExpiry ∧ s.w.tr.stall.isSome = true ∧ stallRuns s = true ∧ strong .encoder
         ∨ (∃ n, c = .silenceTimeout n ∧ (peerOf s n).silence.isSome = true ∧ (peerOf s n).conflict = false
             ∧ isMember s (peerOf s n) = true ∧ (stateOf (peerOf s n)).isSome = true ∧ strong .peerSilent)
         ∨ (∃ n p v, c = .announceFrame n (.point p) ∧ HeardFrom s n ∧ announceTaken p = true
             ∧ convOf s p.comp = some v
             ∧ ((∃ g, geometryOf (peerOf s n) p.comp = some g ∧ inSurvey s.w.seq.survey v n = true
                   ∧ (g.stop ≠ p.stop ∨ g.down ≠ p.down ∨ g.up ≠ p.up ∨ g.fitted ≠ p.fitted))
               ∨ (p.fitted = true ∧ ∀ g, geometryOf (peerOf s n) p.comp = some g → g.fitted = false)))
         ∨ (∃ n p m h, c = .announceFrame n (.point p) ∧ HeardFrom s n ∧ announceTaken p = true ∧ m ≠ n
             ∧ h ∈ (peerOf s m).geometry ∧ h.comp = p.comp ∧ h.point = p.point
             ∧ ((peerOf s m).conflict = false ∧ surveyed m ∨ (peerOf s n).conflict = false ∧ surveyed n))
         ∨ (∃ x y z, c = .modeSelectorChange x y z ∧ ¬(x = false ∧ y = false ∧ z = true))
         ∨ (∃ n mask, c = .alarmFrame n mask ∧ HeardFrom s n ∧ coversWinder s mask = true ∧ strong .alarm)
         ∨ (∃ n r, c = .stateFrame n r ∧ HeardFrom s n ∧ isMember s (peerOf s n) = true
             ∧ (peerOf s n).role = .point (pointOfState r)
             ∧ (showsHold r = true ∨ enclosureClosed r = false
               ∨ ∃ l, r = .landing l ∧ l.breach = true ∧ strong .gateBreach))) →
       ∃ t, exec c s = .next t ∧ t.w.seq.survey.outcome = .aborted ∧ t.w.seq.survey.failing = none
         ∧ t.w.tr.validated = false ∧ t.w.tr.learned = ⟨[], []⟩ ∧ t.w.seq.wind ≠ .survey ∧ SurveyFailed s t
         ∧ t.l = s.l ∧ t.k = s.k)
  ∧ (∀ (c : Instr) (s t : State), exec c s = .next t → InWind t .survey → surveying t = true →
       t.w.panel.selector = .survey ∧ tripLevel t = false
         ∧ (∀ k, faultState t k = .active →
             (wcfg t).reactions.get k = .slow ∨ (wcfg t).reactions.get k = .report)
         ∧ ∀ p ∈ members t, ∀ r, stateOf p = some r → showsHold r = false ∧ enclosureClosed r = true)

/-- A STATE frame becomes its sender's snapshot and gives its role. At a winder: its alarm enters its sender into the
alarm set or takes it out. In IDLE a landing's CLAIM that R86 takes makes it custodian, a RELEASE of the custodian with
its gates locked ends custody and starts the release hold, and a skip point's load report is taken as its skip's class: a loader's FULL
and a tipper's EMPTY, while any other report, and a compartment not reported, leaves the class; outside
IDLE a load report is ignored. A STATE with STOP_HOLD and without READY withdraws the READY entries of its sender. A landing that reports shaft work has
its zone of each of the winder's compartments in which it announces one offered: admitted in place of its former one, or
LATE_RESTRICTION raised where it comes too late; one that does not has its zones removed. The restrictions stay in depth order.
That of two zones A's is offered first is the model's choice (log 64), and that a zone
offered while X is not known is admitted is read from the manual by inference (log 31). -/
def Obligations.StateFrameBecomesTheSnapshot : Prop :=
  (∀ (s : State) (n : Nat) (r : StateReport), HeardFrom s n →
     ∃ t, exec (.stateFrame n r) s = .next t
       ∧ (peerOf t n).snapshot = some (.state r) ∧ (peerOf t n).role = .point (pointOfState r)
       ∧ (hasRole s .winder = true → t.l = s.l ∧ t.k = s.k ∧ t.w.tr.k = s.w.tr.k ∧ t.w.tr.x = s.w.tr.x
           ∧ t.w.tr.origin = s.w.tr.origin ∧ t.w.seq.seqCounter = s.w.seq.seqCounter
           ∧ (let mask : BitVec 4 :=
                match r with
                | .landing l => if l.alarm then l.mask else 0
                | .skip _ => 0
              (n ∈ t.w.flt.alarmSet ↔ coversWinder s mask = true)
                ∧ ∀ m, m ≠ n → (m ∈ t.w.flt.alarmSet ↔ m ∈ s.w.flt.alarmSet))
           ∧ (showsHold r = true → s.w.seq.wind ≠ .preparing → ∀ e ∈ t.w.seq.list, e.kind = .ready → e.origin = n →
               showsReady r e.comp = false → e.mark.isSome = true))
       ∧ (hasRole s .winder = false → t.w = s.w ∧ t.line.queue.answer = s.line.queue.answer
           ∧ t.line.queue.alarm = s.line.queue.alarm)
       ∧ (∀ l c, r = .landing l → InWind s .idle → (wcfg s).kind = .service → s.w.tr.validated = true →
           s.w.seq.custodian = none → s.w.seq.parked = some (l.level, n) →
           landingComp l (wcfg s).comps.a = some c → c.custody = .claim → t.w.seq.wind = .idle →
           t.w.seq.custodian = some n)
       ∧ (∀ l c, r = .landing l → InWind s .idle → (wcfg s).kind = .service → s.w.seq.custodian = some n →
           landingComp l (wcfg s).comps.a = some c → c.custody = .release →
           (l.gate = .closedLocked → t.w.seq.custodian = none
             ∧ (t.w.seq.wind = .idle → t.w.seq.last = some n ∧ t.w.seq.releaseHold = some 1000))
           ∧ (l.gate ≠ .closedLocked → t.w.seq.wind = .idle → t.w.seq.custodian = some n))
       ∧ (∀ k c q, r = .skip k → InWind s .idle → (wcfg s).kind = .rock → skipComp k (compOf s c) = some q →
           (s.w.tr.validated = true → (peerOf s n).conflict = false → (peerOf s n).role = .point (pointOfState r) →
             (stopDepth s c n).any (within s c) = true →
             (k.tipper = false → q.report = .full → t.w.tr.cls.get c = .full)
               ∧ (k.tipper = true → q.report = .empty → t.w.tr.cls.get c = .empty)
               ∧ (k.tipper = false → q.report ≠ .full → t.w.tr.cls.get c = s.w.tr.cls.get c)
               ∧ (k.tipper = true → q.report ≠ .empty → t.w.tr.cls.get c = s.w.tr.cls.get c))
           ∧ (s.w.tr.validated = false ∨ (peerOf s n).conflict = true ∨ (stopDepth s c n).any (within s c) = false →
               t.w.tr.cls.get c = s.w.tr.cls.get c))
       ∧ (∀ k c, r = .skip k → hasRole s .winder = true → (wcfg s).kind = .rock →
           s.w.seq.wind ≠ .idle ∨ skipComp k (compOf s c) = none → t.w.tr.cls.get c = s.w.tr.cls.get c))
  ∧ (∀ (s : State) (n : Nat) (l : LandingReport), HeardFrom s n → hasRole s .winder = true →
       ∃ t, exec (.stateFrame n (.landing l)) s = .next t
         ∧ (l.work = false → t.w.env.zones = s.w.env.zones.filter fun z => z.node != n)
         ∧ ((s.w.env.zones.Pairwise fun y z => y.centre ≤ z.centre) →
             t.w.env.zones.Pairwise fun y z => y.centre ≤ z.centre)
         ∧ (l.work = true → (peerOf s n).role = .point (.landing l.level) → (wcfg s).comps.a ≠ (wcfg s).comps.b →
             let zoneOf (c : Conv) (z : Zone) : Prop :=
               ∃ g lvl, geometryOf (peerOf s n) ((wcfg s).comps.get c) = some g ∧ g.point = .landing lvl ∧ 0 < g.half
                 ∧ (let centre : Int := if (peerOf s n).conflict then g.stop else (stopDepth s c n).getD g.stop
                    let h : Int := 100 * g.half
                    z =
                      { node := n, comp := (wcfg s).comps.get c, centre := centre, upper := centre - h
                        lower := centre + h, speed := max (wcfg s).creep (100 * g.zoneSpeed) })
             let offered (c : Conv) (z : Zone) (zs : List Zone) (r : PerFault Bool) (zs' : List Zone)
                 (r' : PerFault Bool) : Prop :=
               let slowEnough : Prop := ∀ v, zoneValue s z = some v → (s.w.tr.v.get c).natAbs ≤ v
               (z ∈ zs → zs' = zs ∧ r' = r)
               ∧ (z ∉ zs → zs.length < 28 → governs s = false ∨ slowEnough →
                   z ∈ zs' ∧ (∀ y, y ≠ z → (y ∈ zs' ↔ y ∈ zs ∧ ¬(y.node = n ∧ y.comp = z.comp))) ∧ r' = r)
               ∧ (z ∉ zs → 28 ≤ zs.length ∨ governs s = true ∧ ¬slowEnough →
                   zs' = zs
                     ∧ (governs s = true → s.w.seq.wind ≠ .stopping → r' = r.set .lateRestriction true)
                     ∧ (governs s = false ∨ s.w.seq.wind = .stopping → r' = r))
             let zones := s.w.env.zones
             let raised := s.w.flt.raised
             (∀ za, zoneOf .a za → (∀ z, ¬zoneOf .b z) → offered .a za zones raised t.w.env.zones t.w.flt.raised)
             ∧ (∀ zb, zoneOf .b zb → (∀ z, ¬zoneOf .a z) → offered .b zb zones raised t.w.env.zones t.w.flt.raised)
             ∧ (∀ za zb, zoneOf .a za → zoneOf .b zb → ∃ zs r, offered .a za zones raised zs r
                 ∧ offered .b zb zs r t.w.env.zones t.w.flt.raised)
             ∧ ((∀ c z, ¬zoneOf c z) → t.w.env.zones = zones ∧ t.w.flt.raised = raised)))

/-- A CALL addressed to the winder with room for its answer: its verdict is answered at once, a refusal leaves the
counter, an accepted call takes the counter's number and joins the tail of the list, and a DISPATCH merged into one of the
list gives it its class. A CALL that arrives with 8 ANSWER frames queued is
not taken: no entry, no answer, and the counter kept. A CALL of no kind is outside
this statement (log 19), a DISPATCH of a class that no cage holds enters as UNKNOWN (log 40), and of several landings that
announce a level the lowest node's is looked at (log 29). The verdict makes its tests in R71's order, and each test is
spelled out by the rule that gives it: the kind of winder, the origin's and the served level's landings, a served landing
away, the survey, the custody of a DISPATCH, its level and class, a RELEVEL's distance, a call held, the cage at the level,
and the room of the list. -/
def Obligations.CallFrameIsAnswered : Prop :=
  (∀ (s : State) (c : Call),
     let origin := peerOf s c.origin
     let level := c.dest.getD c.level
     let stopAt (p : Peer) (l : Nat) : Prop :=
       statusOf p ≠ .conflict
         ∧ ∃ g, geometryOf p (wcfg s).comps.a = some g ∧ g.point = .landing l ∧ g.hasLanding = true
     let served : Option Peer := landingAt s (wcfg s).comps.a level
     let unknown : Prop :=
       (∀ l, origin.role ≠ .point (.landing l)) ∨ ¬stopAt origin c.level
         ∨ c.kind = .dispatch ∧ ¬∃ p, served = some p ∧ stopAt p level
     let away : Prop :=
       ∃ p, served = some p ∧ (statusOf p = .silent ∨ ∃ r, stateOf p = some (.landing r) ∧ r.outOfService = true)
     let surveyedAt : Prop := ∃ p d, served = some p ∧ stopDepth s .a p.node = some d
     let nearBy : Prop :=
       s.w.seq.wind = .idle ∧ ∃ p d x, served = some p ∧ stopDepth s .a p.node = some d ∧ s.w.tr.x.a = some x
         ∧ (x - d).natAbs ≤ (wcfg s).relevelWindow ∧ (wcfg s).tol < (x - d).natAbs
     let servesMen : Prop := ∃ p g, served = some p ∧ geometryOf p (wcfg s).comps.a = some g ∧ g.servesMen = true
     let rest : Verdict :=
       match (s.w.seq.list ++ s.w.seq.slot ++ recordCalls s.w.seq.record).find? (sameCall c) with
       | some d => .merged d.seq
       | none =>
         if c.kind = .fetch ∧ s.w.seq.parked.map (·.1) = some c.level then .complete
         else if 16 ≤ s.w.seq.list.length + (if s.w.seq.wind = .preparing then s.w.seq.slot.length else 0) then
           .refused .listFull
         else .accepted
     (((wcfg s).kind = .rock ↔ c.kind ≠ .ready) → verdictOn s c = .refused .wrongKind)
     ∧ ((wcfg s).kind = .service → c.kind ≠ .ready →
         (unknown → verdictOn s c = .refused .unknownLevel)
         ∧ (¬unknown → away → verdictOn s c = .refused .levelOutOfService)
         ∧ (¬unknown → ¬away → (s.w.tr.validated = false ∨ ¬surveyedAt) → verdictOn s c = .refused .notSurveyed)
         ∧ (¬unknown → ¬away → s.w.tr.validated = true → surveyedAt →
             (c.kind = .dispatch → s.w.seq.custodian ≠ some c.origin → s.w.seq.last ≠ some c.origin →
               verdictOn s c = .refused .notCustodian)
             ∧ ((c.kind = .dispatch → s.w.seq.custodian = some c.origin ∨ s.w.seq.last = some c.origin) →
                 (c.dest = some c.level → verdictOn s c = .refused .sameLevel)
                 ∧ (c.dest ≠ some c.level → c.cls = some .men → ¬servesMen → verdictOn s c = .refused .classNotServed)
                 ∧ (c.dest ≠ some c.level → (c.cls = some .men → servesMen) →
                     (c.kind = .relevel → ¬nearBy → verdictOn s c = .refused .notNear)
                     ∧ ((c.kind = .relevel → nearBy) → verdictOn s c = rest)))))
     ∧ ((wcfg s).kind = .rock → c.kind = .ready →
         let unknownPoint : Prop :=
           (origin.role ≠ .point .loader ∧ origin.role ≠ .point .tipper) ∨ convOf s c.comp = none
             ∨ geometryOf origin c.comp = none ∨ statusOf origin = .conflict
         let learnedPoint : Prop := ∃ v, convOf s c.comp = some v ∧ (learnedOf s v c.origin).isSome = true
         (unknownPoint → verdictOn s c = .refused .unknownLevel)
         ∧ (¬unknownPoint → (s.w.tr.validated = false ∨ ¬learnedPoint) → verdictOn s c = .refused .notSurveyed)
         ∧ (¬unknownPoint → s.w.tr.validated = true → learnedPoint → verdictOn s c = rest)))
  ∧ (∀ (s : State) (n : Nat) (f : CallFrame) (c : Call), HeardFrom s n → Runs s .winder → f.target = s.config.node →
    s.line.queue.answer.length < 8 → callEntry s n f.ask = some c →
    ∃ t, exec (.callFrame n f) s = .next t ∧ t.l = s.l ∧ t.k = s.k
      ∧ (∀ r, verdictOn (hear n s) c = .refused r →
          t.w.seq.seqCounter = s.w.seq.seqCounter
            ∧ ∃ more, t.line.queue.answer =
                s.line.queue.answer ++ [{ target := n, kind := some c.kind, reply := .refused (some r) }] ++ more)
      ∧ (∀ q, verdictOn (hear n s) c = .merged q →
          t.w.seq.seqCounter = s.w.seq.seqCounter
            ∧ ∃ more, t.line.queue.answer =
                s.line.queue.answer ++ [{ target := n, kind := some c.kind, reply := .merged q }] ++ more
            ∧ (s.w.seq.wind = .running ∨ s.w.seq.wind = .stopping ∨ s.w.seq.wind = .tripped →
                t.w.seq.list = s.w.seq.list.map fun e =>
                  if c.kind = .dispatch ∧ e.kind = .dispatch ∧ e.origin = c.origin ∧ e.dest = c.dest then
                    { e with cls := c.cls }
                  else e))
      ∧ (verdictOn (hear n s) c = .complete →
          t.w.seq.seqCounter = nextSeq s.w.seq.seqCounter
            ∧ ∃ more, t.line.queue.answer = s.line.queue.answer
                ++ [{ target := n, kind := some c.kind, reply := .accepted 0 s.w.seq.seqCounter }] ++ more)
      ∧ (verdictOn (hear n s) c = .accepted →
          t.w.seq.seqCounter = nextSeq s.w.seq.seqCounter
            ∧ (∃ more, t.line.queue.answer = s.line.queue.answer
                ++ [{ target := n, kind := some c.kind
                      reply := .accepted (s.w.seq.list.length + 1) s.w.seq.seqCounter }] ++ more)
            ∧ (s.w.seq.wind = .running ∨ s.w.seq.wind = .stopping ∨ s.w.seq.wind = .tripped →
                t.w.seq.list = s.w.seq.list ++ [c])))
  ∧ ∀ (s : State) (n : Nat) (f : CallFrame), HeardFrom s n → Runs s .winder → 8 ≤ s.line.queue.answer.length →
    ∃ t, exec (.callFrame n f) s = .next t ∧ t.line.queue.answer = s.line.queue.answer
      ∧ t.w.seq.seqCounter = s.w.seq.seqCounter ∧ t.l = s.l ∧ t.k = s.k
      ∧ (∀ e ∈ t.w.seq.list, ∃ d ∈ s.w.seq.slot ++ s.w.seq.list, { e with mark := none } = { d with mark := none })
      ∧ (s.w.seq.wind = .running ∨ s.w.seq.wind = .stopping ∨ s.w.seq.wind = .tripped →
          t.w.seq.list = s.w.seq.list)

/-- An ANSWER from the point's winder, addressed to the point. Of the landing record's kind, it takes the call record
through R152's table, and one that matches no row changes nothing of it: a DROPPED of another number or status, and any
other reply to a record that is neither WAITING nor NO_ANSWER. Of kind READY, with no hold flag set: accepted
or merged it gives READY with its number, refused it is noted, and a DROPPED of READY's own number takes the point back
without posting. The record's status after an answer is the model's choice (log 54). -/
def Obligations.AnswerMovesTheCall : Prop :=
  (∀ (s : State) (n : Nat) (a : AnswerFrame) (c : LandingCall), HeardFrom s n → Runs s .landing →
     a.target = s.config.node → (landingWinder s).map (·.node) = some n → s.l.call = some c → a.kind = some c.kind →
     ∃ t, exec (.answerFrame n a) s = .next t ∧ t.w = s.w ∧ t.k = s.k
       ∧ (c.status = .waiting ∨ c.status = .noAnswer →
           (∀ q, a.reply = .accepted 0 q → t.l.call = some { c with status := .done } ∧ t.l.callTimer = none)
           ∧ (∀ p q, a.reply = .accepted (p + 1) q →
               t.l.call = some { c with status := .accepted, seq := some q } ∧ t.l.callTimer = none)
           ∧ (∀ q, a.reply = .merged q →
               t.l.call = some { c with status := .accepted, seq := some q } ∧ t.l.callTimer = none)
           ∧ (∀ x, a.reply = .refused x → t.l.call = some { c with status := .refused, reason := x }
               ∧ t.l.callTimer = none ∧ ∃ ms, t.l.flash = some ms ∧ 3000 ≤ ms))
       ∧ (∀ q, c.status = .accepted → c.seq = some q → a.reply = .dropped q →
           t.l.call = some { c with status := .dropped } ∧ ∃ ms, t.l.flash = some ms ∧ 3000 ≤ ms)
       ∧ (∀ q, a.reply = .dropped q → (c.status ≠ .accepted ∨ c.seq ≠ some q) → t.l.call = some c)
       ∧ ((∀ q, a.reply ≠ .dropped q) → c.status ≠ .waiting → c.status ≠ .noAnswer → t.l.call = some c)
       ∧ (isOn s.l.outKey = false → t.l.state = s.l.state ∧ t.l.release = s.l.release))
  ∧ (∀ (s : State) (n : Nat) (a : AnswerFrame) (c : ReadyCall), HeardFrom s n → SkipRuns s →
       a.target = s.config.node → (pointWinder s).map (·.node) = some n → s.k.call = some c → a.kind = some .ready →
       anyFlag s.k = false → isShut s = true →
       ∃ t, exec (.answerFrame n a) s = .next t ∧ t.w = s.w ∧ t.l = s.l
         ∧ ((s.k.state = .loaded ∨ s.k.state = .dumped) → s.k.posted = true →
             (∀ p q, a.reply = .accepted p q ∨ a.reply = .merged q → t.k.state = .ready ∧ t.k.callTimer = none
               ∧ t.k.call = some { c with status := .accepted, seq := some q })
             ∧ (∀ x, a.reply = .refused x → t.k.state = s.k.state ∧ t.k.posted = true
                 ∧ t.k.call = some { c with status := .refused, seq := none }))
         ∧ (∀ q, s.k.state = .ready → c.seq = some q → a.reply = .dropped q →
             t.k.posted = false ∧ t.k.state = (if hasRole s .tipper then .dumped else .loaded)))

/-- A shaft point's ANNOUNCE within range replaces its sender's record for its compartment, and the clash test is made
over every record held; one out of range leaves every record, and the role, which R53 does not say (log 43). At a winder
a changed depth removes the point's learned entry. An ANNOUNCE from a node that was not PRESENT, or with the start mark,
has an ACTIVE node queue its own set. A winder's ANNOUNCE gives its sender's role; a role that differs takes the geometry,
the snapshot and the learned entries. Every other peer's record stays then, its CONFLICT mark too, which is the model's
reading of when the clash test is made (log 45). -/
def Obligations.AnnounceReplacesTheGeometry : Prop :=
  (∀ (s : State) (n : Nat) (p : PointAnnounce), HeardFrom s n →
     ∃ t, exec (.announceFrame n (.point p)) s = .next t
       ∧ (announceTaken p = true →
           geometryOf (peerOf t n) p.comp =
               some
                 { point := p.point, comp := p.comp, hasLanding := p.hasLanding, servesMen := p.servesMen
                   fitted := p.fitted, stop := p.stop, down := p.down, up := p.up
                   half := landingField p.point p.half, zoneSpeed := landingField p.point p.zoneSpeed }
             ∧ (peerOf t n).role = .point p.point
             ∧ ∀ x ∈ t.peers, x.conflict = true ↔
                 ∃ y ∈ t.peers, y.node ≠ x.node
                   ∧ ∃ g ∈ x.geometry, ∃ h ∈ y.geometry, g.comp = h.comp ∧ g.point = h.point)
       ∧ (announceTaken p = false → (peerOf t n).geometry = (peerOf s n).geometry
           ∧ (peerOf t n).role = (peerOf s n).role ∧ (peerOf t n).conflict = (peerOf s n).conflict)
       ∧ (hasRole s .winder = true → t.l = s.l ∧ t.k = s.k ∧ t.w.tr.k = s.w.tr.k ∧ t.w.tr.x = s.w.tr.x
           ∧ t.w.tr.origin = s.w.tr.origin ∧ t.w.seq.seqCounter = s.w.seq.seqCounter
           ∧ (∀ c g, announceTaken p = true → (peerOf s n).role = .point p.point → convOf s p.comp = some c →
               geometryOf (peerOf s n) p.comp = some g →
               (g.stop ≠ p.stop ∨ g.down ≠ p.down ∨ g.up ≠ p.up → learnedOf t c n = none)
               ∧ (g.stop = p.stop → g.down = p.down → g.up = p.up → surveying s = false →
                   t.w.tr.learned = s.w.tr.learned)))
       ∧ (hasRole s .winder = false → t.w = s.w))
  ∧ (∀ (s : State) (n : Nat) (a : Announce), HeardFrom s n →
       let start : Bool :=
         match a with
         | .point p => p.start
         | .winder w => w.start
       ∃ t, exec (.announceFrame n a) s = .next t
         ∧ (s.line.mode = .active → ((peerOf s n).heard ≠ .present ∨ start = true) → ∀ w own,
             ownAnnounce s w false = some own →
             (onLine (.announce w) s = false → t.line.queue.announce.at w = some own)
             ∧ (onLine (.announce w) s = true → t.line.pendingAnnounce.at w = some own))
         ∧ (s.line.mode ≠ .active ∨ (peerOf s n).heard = .present ∧ start = false →
             t.line.queue.announce = s.line.queue.announce ∧ t.line.pendingAnnounce = s.line.pendingAnnounce))
  ∧ (∀ (s : State) (n : Nat) (w : WinderAnnounce), HeardFrom s n →
       let said : PeerRole :=
         if w.second then .winder w.kind none (some w.comp) else .winder w.kind (some w.comp) none
       ∃ t, exec (.announceFrame n (.winder w)) s = .next t
         ∧ ((peerOf s n).role = .none → (peerOf t n).role = said ∧ (peerOf t n).geometry = (peerOf s n).geometry)
         ∧ (∀ q, (peerOf s n).role = .point q → (peerOf t n).role = said ∧ (peerOf t n).geometry = []
             ∧ (peerOf t n).snapshot = none
             ∧ (hasRole s .winder = true → ∀ c, learnedOf t c n = none))
         ∧ (∀ k f g, (peerOf s n).role = .winder k f g →
             (k ≠ w.kind → (peerOf t n).role = said ∧ (peerOf t n).snapshot = none)
             ∧ (k = w.kind → w.second = false → (f = none ∨ f = some w.comp) → g ≠ some w.comp →
                 (peerOf t n).role = .winder k (some w.comp) g ∧ (peerOf t n).snapshot = (peerOf s n).snapshot)
             ∧ (k = w.kind → w.second = true → (g = none ∨ g = some w.comp) → f ≠ some w.comp →
                 (peerOf t n).role = .winder k f (some w.comp) ∧ (peerOf t n).snapshot = (peerOf s n).snapshot))
         ∧ (∀ m, m ≠ n → peerOf t m = peerOf s m))

/-- A MOTION page is held for its sender; with both pages of one number that has not been delivered, the report
becomes the sender's snapshot with the motion page's delivery moment, and otherwise the snapshot stays. A landing whose
winder it is then has the state of the table of chapter 7: NO_CAGE and CAGE_HERE are evaluated anew, CLAIMING stands while
the cage is parked here and none is named, CUSTODY and LOCKING while it is parked and this landing named, RELEASING while
named, and an ACCEPTED call record takes its service mark, DONE or DROPPED by R153's rows in order. A skip point whose
winder it is leaves with its agreed skip, its dispatched mark set; has UNREADY_START at a start that it has not agreed
to; and takes a skip in position, or lets one go. That the winder's state is taken from the motion page, whatever the status page of
the same report shows, is read from the manual by inference (log 43). An input not yet qualified reads as off by the model's
choice (log 13). -/
def Obligations.PagesMakeAReport : Prop :=
  (∀ (s : State) (n : Nat) (p : Page), HeardFrom s n →
       let held : Option (MotionPage × Nat) :=
         match p with
         | .motion m => some (m, s.clock)
         | .status _ => (assemblyOf s n).motion
       let status : Option StatusPage :=
         match p with
         | .motion _ => (assemblyOf s n).status
         | .status q => some q
       ∃ t, exec (.motionPage n p) s = .next t
         ∧ (assemblyOf t n).motion = held ∧ (assemblyOf t n).status = status
         ∧ (∀ m at' q, held = some (m, at') → status = some q → m.number = q.number →
             (assemblyOf s n).delivered ≠ some m.number →
             (peerOf t n).snapshot = some (.motion { report := ⟨m, q⟩, receivedAt := at' })
               ∧ (peerOf t n).role = roleAfter (peerOf s n).role (.winder q.kind (some q.first) (some q.second))
               ∧ (assemblyOf t n).delivered = some m.number)
         ∧ ((∀ m at' q, held = some (m, at') → status = some q → m.number = q.number →
               (assemblyOf s n).delivered = some m.number) →
             (peerOf t n).snapshot = (peerOf s n).snapshot)
         ∧ (hasRole s .winder = false → t.w = s.w))
  ∧ (∀ (s : State) (n at' : Nat) (p : Page) (m : MotionPage) (q : StatusPage), HeardFrom s n → Runs s .landing →
       (p = .motion m ∧ at' = s.clock ∧ (assemblyOf s n).status = some q
         ∨ p = .status q ∧ (assemblyOf s n).motion = some (m, at')) →
       m.number = q.number → (assemblyOf s n).delivered ≠ some m.number →
       q.kind = .service → cageCompartment (pcfg s) = some q.first →
       (∀ x ∈ s.peers, x.node ≠ n → windsCage (pcfg s) x = false) →
       let own := s.config.node
       let parked : Bool := m.wind == .idle && q.parked == some (pcfg s).level
       let named : Bool := q.custodian == own
       let cage : LandingState :=
         if parked && named then .custody
         else if parked && q.custodian == 0 && q.last != own then
           (if gateOfInputs s == .closedLocked && !s.l.breach then .claiming else .cageHere)
         else .noCage
       ∃ t, exec (.motionPage n p) s = .next t ∧ t.w = s.w ∧ t.k = s.k
         ∧ (isOn s.l.outKey = false →
             (s.l.state = .noCage ∨ s.l.state = .cageHere → t.l.state = cage)
             ∧ (s.l.state = .claiming →
                 t.l.state = (if parked && named then .custody
                   else if parked && q.custodian == 0 then .claiming else .noCage))
             ∧ (s.l.state = .custody → t.l.state = cage)
             ∧ (s.l.state = .locking →
                 (parked && named = true → t.l.state = .locking ∧ t.l.lockTimer = s.l.lockTimer)
                 ∧ (parked && named = false → t.l.state = cage ∧ t.l.lockTimer = none
                     ∧ t.l.pendingDispatch = none ∧ ∃ ms, t.l.flash = some ms ∧ 1000 ≤ ms))
             ∧ (s.l.state = .releasing → t.l.state = if named then .releasing else cage)
             ∧ (t.l.state ≠ s.l.state → t.l.release = (t.l.state == .custody)))
         ∧ (s.l.state = .outOfService → t.l.state = .outOfService)
         ∧ (∀ c, s.l.call = some c →
             (c.status ≠ .accepted → t.l.call = some c)
             ∧ (c.status = .accepted →
                 let here : Bool := m.wind == .idle && q.parked == some c.level
                 let mine : Bool := q.call == some c.kind && q.origin == own && c.seq == some q.seq
                 let lapsed : Bool := q.record && q.call.isNone && c.mark == .inService
                 let resting : Bool := m.wind == .idle && q.call.isNone && !q.record
                 (here = true → t.l.call = some { c with status := .done })
                 ∧ (here = false → mine = true → t.l.call = some { c with mark := .inService })
                 ∧ (here = false → mine = false → lapsed = true →
                     t.l.call = some { c with mark := .suspended, suspendedSeen := true })
                 ∧ (here = false → mine = false → lapsed = false → resting = true → c.suspendedSeen = true →
                     t.l.call = some { c with status := .dropped } ∧ ∃ ms, t.l.flash = some ms ∧ 3000 ≤ ms)
                 ∧ (here = false → mine = false → lapsed = false → resting = true → c.suspendedSeen = false →
                     t.l.call = some { c with mark := if c.mark = .inService then .returned else c.mark })
                 ∧ (here = false → mine = false → lapsed = false → resting = false → t.l.call = some c))))
  ∧ (∀ (s : State) (n at' : Nat) (p : Page) (m : MotionPage) (q : StatusPage), HeardFrom s n → SkipRuns s →
       (p = .motion m ∧ at' = s.clock ∧ (assemblyOf s n).status = some q
         ∨ p = .status q ∧ (assemblyOf s n).motion = some (m, at')) →
       m.number = q.number → (assemblyOf s n).delivered ≠ some m.number →
       q.kind = .rock → (q.first = (pcfg s).first.comp ∨ q.second = (pcfg s).first.comp) →
       (∀ x ∈ s.peers, x.node ≠ n → windsSkips (pcfg s) x = false) →
       let underWay : Bool := m.wind == .preparing || m.wind == .running || m.wind == .stopping
       let agreed : Bool :=
         s.k.state == .ready || ((s.k.state == .loaded || s.k.state == .dumped) && s.k.posted)
       let tipper := hasRole s .tipper
       ∃ t, exec (.motionPage n p) s = .next t ∧ t.w = s.w ∧ t.l = s.l
         ∧ (agreed = true → underWay = true →
             t.k.state = .noSkip ∧ t.k.working = none ∧ t.k.posted = false ∧ t.k.call = none ∧ t.k.callTimer = none
               ∧ (∀ w, s.k.working = some w → t.k.mark = s.k.mark.put w true))
         ∧ (agreed = false → m.wind = .preparing →
             (s.k.state = .inPosition ∨ s.k.state = .loading ∨ s.k.state = .dumping →
               t.k.unready = (s.k.unready || !anyFlag s.k) ∧ t.k.state = .noSkip ∧ t.k.working = none)
             ∧ (s.k.state = .doorStuck ∨ s.k.state = .loaded ∨ s.k.state = .dumped →
               t.k.unready = (s.k.unready || !anyFlag s.k)))
         ∧ (∀ w c x, s.k.state = .noSkip → m.wind = .idle → served (pcfg s) w = some c →
             (q.first = c.comp ∧ m.x.a = some x ∨ q.first ≠ c.comp ∧ q.second = c.comp ∧ m.x.b = some x) →
             (x - c.stop).natAbs ≤ (pcfg s).positionTol → s.k.present.at w = true →
             ((served (pcfg s) w.other).isSome = true → s.k.present.at w.other = false) → s.k.mark.at w = false →
             t.k.working = some w
               ∧ t.k.state = (if tipper then (if isShut s then .inPosition else .dumping)
                   else if isShut s && !isOn s.k.complete && !anyFlag s.k then .loading else .inPosition))
         ∧ (s.k.state = .inPosition → m.wind ≠ .idle → t.k.state = .noSkip ∧ t.k.working = none)
         ∧ (s.k.state = .noSkip → m.wind ≠ .idle → t.k.state = .noSkip))

/-! ## The shaft line -/

/-- A received frame that R185 or R204 discards changes no more than the line's activity; a MARKER waits for 6 ms
after its start bit; any other frame does what its delivery command does. A held MARKER's delivery moment does what
its MARKER_FRAME would, the frame leaving the receive buffer. That one command brings a whole frame, its start bit's
moment included, is the model's choice (log 1).
A frame is discarded exactly where its check is wrong, its kind is 7, its sender 0 or above 40, its length not its kind's, or
a code, compartment or level of its data not assigned, the second compartment of STATE alone being allowed to be 0. That a
STATE whose role code is WINDER is discarded for none of its other fields is read from the manual by inference (log 19). -/
def Obligations.ReceivedFrameIsCheckedAndDelivered : Prop :=
  (∀ (s : State) (r : RawFrame), Receives s → (s.line.activity = .idle ∨ s.line.activity = .receiving) →
     let after : State := { s with line.activity := .receiving, line.interframe := true, line.rxStart := none }
     (decodeFrame r = none → ∃ t, exec (.frameReceived r) s = .next t ∧ Follows after t ∧ t.peers = s.peers)
     ∧ (∀ f comp age start, decodeFrame r = some f → f.payload = .marker comp age → s.line.rxStart = some start →
         ∃ t, exec (.frameReceived r) s = .next t ∧ t.peers = s.peers
           ∧ (s.line.rxMarkers.length < 2 → t.line.rxMarkers =
               s.line.rxMarkers ++ [{ sender := f.sender, comp := comp, age := age, due := start + 6 }]))
     ∧ (∀ f c, decodeFrame r = some f → deliveryOf f = some c → exec (.frameReceived r) s = exec c after))
  ∧ (∀ (s : State) (m : HeldMarker) (ms : List HeldMarker), s.line.rxMarkers = m :: ms →
       exec .markerDeliveryMoment s = exec (.markerFrame m.sender m.comp m.age) { s with line.rxMarkers := ms }
         ∧ ∃ t, exec .markerDeliveryMoment s = .next t
             ∧ (m.sender ≠ s.config.node → t.line.rxMarkers = ms)
             ∧ (hasRole s .winder = false → m.sender ≠ s.config.node → t.w = s.w))
  ∧ (∀ r : RawFrame,
       let kind := r.priority.toNat / 64
       let sender := r.priority.toNat % 64
       let n (i : Nat) : Nat := (r.data[i]?.map (·.toNat)).getD 0
       let length : Nat :=
         match kind with
         | 0 => 1 | 1 => 2 | 2 => 16 | 3 => 5 | 4 => 4 | 5 => 6 | _ => 14
       let noComp (x : Nat) : Prop := x = 0 ∨ 4 < x
       let unassigned : Prop :=
         (kind = 1 ∧ noComp (n 0))
         ∨ (kind = 2 ∧ n 0 < 128 ∧ (8 < n 0 % 16 ∨ n 12 / 64 = 3 ∨ n 12 / 16 % 4 = 3 ∨ 5 < n 13 / 16 ∨ 5 < n 13 % 16))
         ∨ (kind = 2 ∧ 128 ≤ n 0
             ∧ (8 < n 0 % 16 ∨ 5 < n 0 / 16 % 8 ∨ 4 < n 3 / 32 ∨ n 8 / 64 = 3 ∨ 31 < n 8 % 64 ∧ n 8 % 64 ≠ 63))
         ∨ (kind = 3 ∧ n 0 / 64 = 1 ∧ (6 < n 1 / 16 ∨ noComp (n 3 % 8) ∨ 4 < n 4 % 8))
         ∨ (kind = 3 ∧ 2 ≤ n 0 / 64
             ∧ (7 < n 1 / 16 ∨ n 3 / 64 = 3 ∨ noComp (n 3 % 8) ∨ 4 < n 4 % 8 ∨ n 4 % 8 ≠ 0 ∧ n 4 / 64 = 3))
         ∨ (kind = 4 ∧ (4 < n 1 / 32 ∨ n 1 / 32 = 2 ∧ 5 < n 2 / 32 ∨ n 1 / 32 = 4 ∧ noComp (n 3)))
         ∨ (kind = 5 ∧ (4 < n 1 / 32 ∨ n 1 / 8 % 4 = 2 ∧ 9 < n 2))
         ∨ (kind = 6 ∧ noComp (n 1))
       decodeFrame r = none ↔
         checkOf r.priority r.length r.data ≠ r.check ∨ kind = 7 ∨ sender = 0 ∨ 40 < sender
           ∨ r.length.toNat ≠ length ∨ r.data.length ≠ length ∨ unassigned)

/-- The line activity: a start bit on an idle line is received, a frame error leads to RESYNC, 170 recessive bits lead
from it to IDLE, and the interframe space ends in IDLE or, at a dominant bit, in RESYNC. On an idle line in ACTIVE with a
frame queued, an attempt starts with a frame of the lowest kind that waits, its bits those of the frame as it stands; a
MARKER's age is counted to this start bit and capped at 255. -/
def Obligations.LineActivityAndAttemptsFollowTheLine : Prop :=
  (∀ s : State, Receives s →
    (s.line.activity = .idle → ∃ t, exec .startBitReceived s = .next t
      ∧ Follows { s with line.activity := .receiving, line.rxStart := some s.clock } t)
    ∧ (s.line.activity = .receiving → ∃ t, exec .frameError s = .next t
        ∧ Follows { s with line.activity := .resync, line.interframe := false, line.rxStart := none } t)
    ∧ (s.line.activity = .resync → ∃ t, exec .resyncEnd s = .next t ∧ Follows { s with line.activity := .idle } t)
    ∧ (s.line.interframe = true → ∀ dominant, ∃ t, exec (.interframeSpaceEnd dominant) s = .next t
        ∧ Follows
            { s with line.interframe := false, line.activity := if dominant then .resync else .idle } t))
  ∧ (∀ (s : State), PlacesSound s → s.line.mode = .active → s.line.activity = .idle → s.line.attempt = none →
       (∃ p b, frameAt s.clock s.line.queue p = some b) →
       ∃ t a, exec .attemptStart s = .next t ∧ t.line.attempt = some a
         ∧ a.frame.sender = s.config.node ∧ a.startedAt = s.clock ∧ a.bits = encodeFrame a.frame
         ∧ frameAt s.clock s.line.queue a.place = some a.frame.payload
         ∧ (∀ p b, frameAt s.clock s.line.queue p = some b → kindCode a.frame.payload ≤ kindCode b)
         ∧ (∀ m ms, a.place = .marker → s.line.queue.marker = m :: ms →
             a.frame.payload = .marker m.comp (min 255 (s.clock - m.edge)))
         ∧ Follows { s with line.attempt := some a, line.activity := .sending, line.interframe := false } t)

/-- The end of an attempt of an ALARM, MARKER or CALL: completed, its frame leaves and the interframe space begins;
lost, the frame stays and the line is received; aborted, the frame is discarded and the line is received. So it is
with the ANSWER place, whose head it is; where the list holds dropping entries the freed place is given to the earliest-marked,
which leaves the list with its DROPPED answer at the tail. That this is done within the attempt's end, so that a CALL which
arrives as the place frees finds it taken, is the model's choice (log 73). The place of an ANNOUNCE takes its pending frame, or else is empty when completed, keeps
the frame when lost, and takes a fresh one with the same start mark when aborted. The periodic slot: a winder's completed
page is followed by the other page of the same report where that has not completed, the status page after a motion page, the
motion page after a rewritten status page that completes before it, and by nothing where both have; an aborted page by a new
report's motion page, and a lost page stays; of a pending report the motion page enters a freed slot and the same page
replaces a lost one. A shaft point's STATE leaves the slot
empty when completed and stays when lost, an aborted one is followed by a fresh one, a pending STATE enters the slot, and one
whose content changes by what the event brings goes into it. An attempt during which the
own number was heard ends in FAULTED, which `OwnNumberHeardFaults` says. -/
def Obligations.AttemptEndActsOnThePlace : Prop :=
  (∀ (s : State) (a : Attempt), s.line.attempt = some a → s.line.heardOwn = false →
     let freed : TransmitQueue :=
       match a.place with
       | .alarm => { s.line.queue with alarm := none }
       | .marker => { s.line.queue with marker := s.line.queue.marker.drop 1 }
       | _ => { s.line.queue with call := s.line.queue.call.drop 1 }
     (a.place = .alarm ∨ a.place = .marker ∨ a.place = .call →
       (∃ t, exec (.attemptEnd .completed) s = .next t
         ∧ Follows { s with line := { s.line with attempt := none, interframe := true, queue := freed } } t)
       ∧ (∃ t, exec (.attemptEnd .lost) s = .next t
         ∧ Follows
             { s with
               line :=
                 { s.line with
                   attempt := none, activity := .receiving, interframe := false, rxStart := some a.startedAt } }
             t)
       ∧ (∃ t, exec (.attemptEnd .aborted) s = .next t
         ∧ Follows
             { s with
               line :=
                 { s.line with
                   attempt := none, activity := .receiving, interframe := false, rxStart := some a.startedAt
                   queue := freed } }
             t))
     ∧ (a.place = .answer →
         let ended (e : AttemptEnding) (answers : List AnswerFrame) : LineController :=
           match e with
           | .completed =>
             { s.line with attempt := none, interframe := true, queue := { s.line.queue with answer := answers } }
           | _ =>
             { s.line with
               attempt := none, activity := .receiving, interframe := false, rxStart := some a.startedAt
               queue := { s.line.queue with answer := answers } }
         let rest := s.line.queue.answer.drop 1
         let underWay : Prop := s.w.seq.wind = .running ∨ s.w.seq.wind = .stopping ∨ s.w.seq.wind = .tripped
         (∃ t more, exec (.attemptEnd .lost) s = .next t ∧ Follows { s with line := ended .lost s.line.queue.answer } t
           ∧ t.line.queue.answer = s.line.queue.answer ++ more ∧ (underWay → more = []))
         ∧ (∀ e, e ≠ .lost → (∀ c ∈ s.w.seq.list, c.mark = none) →
             ∃ t more, exec (.attemptEnd e) s = .next t ∧ Follows { s with line := ended e rest } t
               ∧ t.line.queue.answer = rest ++ more ∧ (underWay → more = []))
         ∧ (∀ (e : AttemptEnding) (before after : List Call) (c : Call) (m : Nat), e ≠ .lost →
             s.line.queue.answer.length ≤ 8 → CallsDistinct s → s.w.seq.list = before ++ c :: after → c.mark = some m →
             (∀ x ∈ before, ∀ k, x.mark = some k → m < k) → (∀ x ∈ after, ∀ k, x.mark = some k → m ≤ k) →
             let dropped : AnswerFrame := { target := c.origin, kind := some c.kind, reply := .dropped c.seq }
             ∃ t more, exec (.attemptEnd e) s = .next t
               ∧ Follows { s with line := ended e (rest ++ [dropped]), w.seq.list := before ++ after } t
               ∧ t.line.queue.answer = rest ++ [dropped] ++ more
               ∧ (∀ x ∈ t.w.seq.list, ¬(x.kind = c.kind ∧ x.origin = c.origin ∧ x.dest = c.dest))
               ∧ (underWay → more = [] ∧ t.w.seq.list = before ++ after))))
  ∧ (∀ (s : State) (a : Attempt), s.line.attempt = some a → s.line.heardOwn = false → a.place = .periodic →
       let motion (r : Report) : Option Payload := some (.page (.motion r.motion))
       let status (r : Report) : Option Payload := some (.page (.status r.status))
       let quiet (t : State) (number : Nat) : Prop :=
         t.w.seq.wind = s.w.seq.wind ∧ t.w.seq.custodian = s.w.seq.custodian
           ∧ (s.w.seq.wind = .preparing → t.line.reportCounter = number)
       (∀ x, Runs s .winder → s.line.pendingPeriodic = none → s.line.sent = some x →
           (x.motionDone = false → x.statusDone = false → s.line.queue.periodic = motion x.report →
             ∃ t r, exec (.attemptEnd .completed) s = .next t ∧ t.line.attempt = none ∧ latestReport t = some r
               ∧ t.line.queue.periodic = status r ∧ (quiet t s.line.reportCounter → r = x.report))
           ∧ (x.motionDone = true → s.line.queue.periodic = status x.report →
             ∃ t, exec (.attemptEnd .completed) s = .next t ∧ t.line.attempt = none
               ∧ (quiet t s.line.reportCounter → t.line.queue.periodic = none ∧ latestReport t = some x.report))
           ∧ (x.motionDone = false → x.statusDone = false → s.line.queue.periodic = status x.report →
             ∃ t r, exec (.attemptEnd .completed) s = .next t ∧ t.line.attempt = none ∧ latestReport t = some r
               ∧ t.line.queue.periodic = motion r ∧ (quiet t s.line.reportCounter → r = x.report))
           ∧ (x.motionDone = false → x.statusDone = true → s.line.queue.periodic = motion x.report →
             ∃ t, exec (.attemptEnd .completed) s = .next t ∧ t.line.attempt = none
               ∧ (quiet t s.line.reportCounter → t.line.queue.periodic = none ∧ latestReport t = some x.report))
           ∧ ∃ t r, exec (.attemptEnd .lost) s = .next t ∧ t.line.attempt = none ∧ latestReport t = some r
               ∧ (s.line.queue.periodic = motion x.report → t.line.queue.periodic = motion r)
               ∧ (s.line.queue.periodic = status x.report → t.line.queue.periodic = status r)
               ∧ (quiet t s.line.reportCounter → r = x.report))
       ∧ (Runs s .winder → s.line.pendingPeriodic = none →
           ∃ t r, exec (.attemptEnd .aborted) s = .next t ∧ t.line.attempt = none ∧ latestReport t = some r
             ∧ t.line.queue.periodic = motion r ∧ r.motion.wind = t.w.seq.wind
             ∧ (quiet t ((s.line.reportCounter + 1) % 256) → r = reportView s
                 ∧ t.line.reportCounter = (s.line.reportCounter + 1) % 256))
       ∧ (∀ r, Runs s .winder → s.line.pendingPeriodic = some (.report r) →
           ∀ e, ∃ t q, exec (.attemptEnd e) s = .next t ∧ t.line.attempt = none ∧ t.line.pendingPeriodic = none
             ∧ latestReport t = some q ∧ (quiet t s.line.reportCounter → q = r)
             ∧ (e ≠ .lost → t.line.queue.periodic = motion q)
             ∧ (∀ p, e = .lost → s.line.queue.periodic = some (.page (.motion p)) → t.line.queue.periodic = motion q)
             ∧ (∀ p, e = .lost → s.line.queue.periodic = some (.page (.status p)) → t.line.queue.periodic = status q))
       ∧ ((Runs s .landing ∨ SkipRuns s) → s.line.pendingPeriodic = none →
           ∃ t, exec (.attemptEnd .aborted) s = .next t ∧ t.line.attempt = none
             ∧ t.line.queue.periodic = some (.state (ownState t)))
       ∧ ((Runs s .landing ∨ SkipRuns s) → s.line.pendingPeriodic = none → s.line.sent = none → ∀ e, e ≠ .aborted →
           ∃ t, exec (.attemptEnd e) s = .next t ∧ t.line.attempt = none
             ∧ (withoutTarget (ownState t) = withoutTarget (ownState s) →
                 t.line.queue.periodic = (if e = .lost then s.line.queue.periodic else none))
             ∧ (withoutTarget (ownState t) ≠ withoutTarget (ownState s) →
                 t.line.queue.periodic = some (.state (ownState t))))
       ∧ (∀ r, (Runs s .landing ∨ SkipRuns s) → s.line.pendingPeriodic = some (.state r) → ∀ e,
           ∃ t, exec (.attemptEnd e) s = .next t ∧ t.line.pendingPeriodic = none
             ∧ (withoutTarget (ownState t) = withoutTarget (ownState s) → t.line.queue.periodic = some (.state r))))
  ∧ (∀ (s : State) (a : Attempt) (w : Which), s.line.attempt = some a → s.line.heardOwn = false →
       a.place = .announce w →
       ∀ e, ∃ t, exec (.attemptEnd e) s = .next t ∧ t.line.attempt = none
         ∧ t.line.queue.announce.at w.other = s.line.queue.announce.at w.other
         ∧ t.line.pendingAnnounce = s.line.pendingAnnounce.put w none
         ∧ (∀ x, s.line.pendingAnnounce.at w = some x → t.line.queue.announce.at w = some x)
         ∧ (s.line.pendingAnnounce.at w = none →
             (e = .completed → t.line.queue.announce.at w = none)
             ∧ (e = .lost → t.line.queue.announce = s.line.queue.announce)
             ∧ (∀ x, e = .aborted → a.frame.payload = .announce x →
                 t.line.queue.announce.at w = ownAnnounce s w (announceStart x))))

/-! ## Timers of a shaft point -/

/-- The lock window running out in LOCKING sets LOCK_FAIL and gives CUSTODY back with the release energised; the flash
timer running out stops the flash. The call timer running out: a landing's WAITING record becomes NO_ANSWER and the
FAULT lamp flashes for 3 s; a skip point that has posted READY queues its CALL again and restarts the timer, its record
then WAITING without a number, which is the model's choice (log 54). The STATE interval running out queues the STATE as it
stands and restarts the interval. -/
def Obligations.PointTimersRunOut : Prop :=
  (∀ s : State, Runs s .landing →
     (s.l.state = .locking → s.l.lockTimer.isSome = true → ∃ t, exec .lockTimerExpiry s = .next t
       ∧ t.l.state = .custody ∧ t.l.release = true
       ∧ Follows
           { s with
             l := { s.l with
                    state := .custody, release := true, lockTimer := none, pendingDispatch := none, lockFail := true } }
           t)
     ∧ ∃ t, exec .flashTimerExpiry s = .next t ∧ Follows { s with l.flash := none } t)
  ∧ (∀ s : State,
       (∀ c, Runs s .landing → s.l.callTimer.isSome = true → s.l.call = some c → c.status = .waiting →
         ∃ t, exec .callTimeout s = .next t
           ∧ Follows
               { s with
                 l.callTimer := none, l.call := some { c with status := .noAnswer }
                 l.flash := some (max 3000 (s.l.flash.getD 0)) }
               t)
       ∧ (∀ c w, SkipRuns s → s.k.callTimer.isSome = true → s.k.call = some c → s.k.posted = true →
           (s.k.state = .loaded ∨ s.k.state = .dumped) → anyFlag s.k = false → isShut s = true →
           pointWinder s = some w →
           ∃ t, exec .callTimeout s = .next t
             ∧ t.k.call = some { comp := c.comp, status := .waiting, seq := none }
             ∧ t.k.callTimer = some (100 * s.config.callTimeout) ∧ t.k.state = s.k.state ∧ t.k.posted = true
             ∧ t.line.queue.call =
                 pushBounded 2 (onLine .call s) { target := w.node, ask := .ready c.comp } s.line.queue.call
             ∧ SameNode s t ∧ t.w = s.w ∧ t.l = s.l ∧ calmSkip t.k = calmSkip s.k))
  ∧ (∀ s : State,
       (Runs s .landing → s.l.stateTimer.isSome = true → ∃ t, exec .stateIntervalExpiry s = .next t
         ∧ latestState t = some (ownState t) ∧ t.l.stateTimer = some (100 * s.config.stateInterval)
         ∧ SameNode s t ∧ t.w = s.w ∧ t.k = s.k ∧ calmLanding t.l = calmLanding s.l)
       ∧ (SkipRuns s → s.k.stateTimer.isSome = true → ∃ t, exec .stateIntervalExpiry s = .next t
         ∧ latestState t = some (ownState t) ∧ t.k.stateTimer = some (100 * s.config.stateInterval)
         ∧ SameNode s t ∧ t.w = s.w ∧ t.l = s.l ∧ calmSkip t.k = calmSkip s.k))

/-! ## A landing's buttons, gate, switches and loops -/

/-- CALL: taken back where the landing is last custodian of a cage parked here; a FETCH where the cage is not here;
RELEVEL: a CALL where the winder stands IDLE off level. DISPATCH and RELEASE in CUSTODY with the gate closed begin
LOCKING, the release off and the lock timer started, the OUT OF SERVICE key off or on; that the landing is then LOCKING
even with the gate CLOSED_LOCKED already is the model's reading (log 11). A DISPATCH by the last custodian of
a cage parked here is queued at once. A press in any other case, and every press in OUT_OF_SERVICE, only flashes the FAULT
lamp. An input of the gate not yet qualified reads as off by the model's choice (log 13). -/
def Obligations.LandingButtonsAct : Prop :=
  (∀ (s : State), Runs s .landing →
     let own := (pcfg s).level
     let ignored : State := { s with l.flash := some (max 1000 (s.l.flash.getD 0)) }
     let waiting (k : CallKind) : LandingCall :=
       { kind := k, level := own, dest := none, status := .waiting, seq := none, reason := none, mark := .none
         suspendedSeen := false }
     let placed (k : CallKind) (w : Nat) (ask : Ask) : State :=
       { s with
         l.call := some (waiting k), l.callTimer := some (100 * s.config.callTimeout)
         line.queue.call := pushBounded 2 (onLine .call s) { target := w, ask := ask } s.line.queue.call }
     let takenBack : Bool := s.l.state == .noCage && parkedHere s && noneNamed s && isLast s
     (takenBack = true →
       ∃ t, exec .callButton s = .next t ∧ Follows { s with l.state := .claiming, l.release := false } t)
     ∧ (∀ w, takenBack = false → (s.l.state = .noCage ∨ s.l.state = .cageHere) → landingWinder s = some w →
         parkedHere s = false → callBusy s = false →
         ∃ t, exec .callButton s = .next t ∧ Follows (placed .fetch w.node (.fetch own)) t)
     ∧ (takenBack = false →
         (s.l.state ≠ .noCage ∧ s.l.state ≠ .cageHere ∨ landingWinder s = none ∨ parkedHere s = true
           ∨ callBusy s = true) →
         ∃ t, exec .callButton s = .next t ∧ Follows ignored t
           ∧ (s.l.state = .outOfService → t.l.state = .outOfService))
     ∧ (∀ w, s.l.state = .noCage → landingWinder s = some w → cageOffLevel s = true → callWaiting s = false →
         ∃ t, exec .relevelButton s = .next t ∧ Follows (placed .relevel w.node (.relevel own)) t)
     ∧ (s.l.state ≠ .noCage ∨ cageOffLevel s = false ∨ callWaiting s = true →
         ∃ t, exec .relevelButton s = .next t ∧ Follows ignored t
           ∧ (s.l.state = .outOfService → t.l.state = .outOfService)))
  ∧ (∀ (s : State) (dest : BitVec 5) (a b c : Bool), Runs s .landing →
       let ignored : State := { s with l.flash := some (max 1000 (s.l.flash.getD 0)) }
       let locking (p : Option (Nat × LoadClass)) : State :=
         { s with
           l := { s.l with
                  state := .locking, release := false, lockTimer := some (pcfg s).lockWindow, pendingDispatch := p } }
       let mayLock : Bool := s.l.state == .custody && gateShut s
       let maySend : Bool :=
         s.l.state == .noCage && parkedHere s && isLast s && gateOfInputs s == .closedLocked
       (mayLock = true → ∃ t, exec .releaseButton s = .next t ∧ Follows (locking none) t ∧ t.l.state = .locking
         ∧ t.l.release = false)
       ∧ (mayLock = false → ∃ t, exec .releaseButton s = .next t ∧ Follows ignored t
           ∧ (s.l.state = .outOfService → t.l.state = .outOfService))
       ∧ (classSelector a b c = none ∨ dest.toNat = (pcfg s).level ∨ callBusy s = true ∨ landingWinder s = none
             ∨ mayLock = false ∧ maySend = false →
           ∃ t, exec (.dispatchButton dest a b c) s = .next t ∧ Follows ignored t
             ∧ (s.l.state = .outOfService → t.l.state = .outOfService))
       ∧ (∀ w cls, classSelector a b c = some cls → dest.toNat ≠ (pcfg s).level → callBusy s = false →
           landingWinder s = some w →
           (mayLock = true → ∃ t, exec (.dispatchButton dest a b c) s = .next t
             ∧ Follows (locking (some (dest.toNat, cls))) t ∧ t.l.state = .locking ∧ t.l.release = false)
           ∧ (maySend = true → ∃ t, exec (.dispatchButton dest a b c) s = .next t
               ∧ Follows
                   { s with
                     l.call := some
                       { kind := .dispatch, level := dest.toNat, dest := some (dest.toNat, cls), status := .waiting
                         seq := none, reason := none, mark := .none, suspendedSeen := false }
                     l.callTimer := some (100 * s.config.callTimeout)
                     line.queue.call :=
                       pushBounded 2 (onLine .call s)
                         { target := w.node, ask := .dispatch (pcfg s).level dest.toNat cls } s.line.queue.call }
                   t)))

/-- The gate contacts give the gate state; a gate opening in NO_CAGE, CAGE_HERE, CLAIMING, RELEASING or OUT_OF_SERVICE
sets GATE_BREACH and ends a claim, one in LOCKING gives CUSTODY back, and the gate locked in LOCKING gives RELEASING,
the OUT OF SERVICE key off or on. In NO_CAGE and CAGE_HERE, and where a claim ends, the state is evaluated anew with the new
gate state and flag: a cage parked here with no custodian is CLAIMING once the gate is locked and no breach stands.
An input not yet qualified reads as off by the model's choice (log 13).
The STOP and SHAFT WORK switches are levels; EMERGENCY becoming active in Running queues one ALARM with the scope's
mask, unless one waits; the OUT OF SERVICE key turned on takes NO_CAGE, CAGE_HERE and CLAIMING. -/
def Obligations.LandingInputsAct : Prop :=
  (∀ (s : State) (closed locked : Bool), s.step ≠ .off → (s.cfg = none ∨ hasRole s .landing = true) →
      let taken : State := { s with l.gateClosed := some closed, l.gateLocked := some locked }
      ∃ t, exec (.gateContactChange closed locked) s = .next t
        ∧ t.l.gateClosed = some closed ∧ t.l.gateLocked = some locked
        ∧ gateOfInputs t = (if closed && locked then .closedLocked else if closed then .closed
            else if locked then .unknown else .opened)
        ∧ (s.step ≠ .run → Follows taken t)
        ∧ (Runs s .landing → isOn s.l.gateClosed = true → closed = false →
            (s.l.state = .releasing ∨ s.l.state = .outOfService → Follows { taken with l.breach := true } t)
            ∧ (s.l.state = .noCage ∨ s.l.state = .cageHere ∨ s.l.state = .claiming →
                t.l.breach = true ∧ t.l.state ≠ .claiming)
            ∧ (s.l.state = .custody → Follows taken t ∧ t.l.state = .custody)
            ∧ (s.l.state = .locking → Follows
                { taken with
                  l := { taken.l with
                         state := .custody, release := true, lockTimer := none, pendingDispatch := none
                         flash := some (max 1000 (s.l.flash.getD 0)) } }
                t))
        ∧ (Runs s .landing → isOn s.l.outKey = false →
            let opening : Bool := isOn s.l.gateClosed && !closed
            let breach : Bool := s.l.breach || opening
            let cage : LandingState :=
              if isNamed s && parkedHere s then .custody
              else if parkedHere s && noneNamed s && !isLast s then
                (if closed && locked && !breach then .claiming else .cageHere)
              else .noCage
            (s.l.state = .noCage ∨ s.l.state = .cageHere →
              t.l.breach = breach ∧ t.l.state = cage ∧ t.l.release = (cage == .custody))
            ∧ (s.l.state = .claiming →
                t.l.breach = breach
                  ∧ (opening = true ∨ gateOfInputs s = .closedLocked ∧ (closed && locked) = false → t.l.state = cage)
                  ∧ (opening = false → gateOfInputs s ≠ .closedLocked ∨ (closed && locked) = true →
                      t.l.state = .claiming)))
        ∧ (Runs s .landing → s.l.state = .locking → gateOfInputs s ≠ .closedLocked → closed = true → locked = true →
            t.l.state = .releasing ∧ t.l.release = false ∧ t.l.lockTimer = none ∧ t.l.pendingDispatch = none
              ∧ (s.l.pendingDispatch = none → t.l.call = s.l.call ∧ t.line.queue.call = s.line.queue.call)
              ∧ (∀ d cls w, s.l.pendingDispatch = some (d, cls) → landingWinder s = some w →
                  t.line.queue.call = pushBounded 2 (onLine .call s)
                    { target := w.node, ask := .dispatch (pcfg s).level d cls } s.line.queue.call)))
  ∧ (∀ s : State, Runs s .landing →
      (∀ on, ∃ t, exec (.stopSwitchChange on) s = .next t ∧ Follows { s with l.stopSwitch := some on } t
        ∧ (landingReport t).stopHold = on)
      ∧ (∀ on, ∃ t, exec (.shaftWorkSwitchChange on) s = .next t ∧ Follows { s with l.workSwitch := some on } t
        ∧ (landingReport t).work = on)
      ∧ (∀ x y, ∃ t, exec (.emergencyChange x y) s = .next t
        ∧ Follows
            { s with
              l.emergency1 := some x, l.emergency2 := some y
              line.queue.alarm :=
                if !emergency s && (x || y) && s.line.queue.alarm.isNone then some (alarmMask (pcfg s))
                else s.line.queue.alarm }
            t
        ∧ (landingReport t).alarm = (x || y))
      ∧ (∃ t, exec (.outOfServiceKeyChange true) s = .next t ∧ t.l.outKey = some true
        ∧ (s.l.state = .noCage ∨ s.l.state = .cageHere ∨ s.l.state = .claiming →
            t.l.state = .outOfService ∧ t.l.release = false)
        ∧ (s.l.state = .custody ∨ s.l.state = .locking ∨ s.l.state = .releasing → t.l.state = s.l.state)
        ∧ Follows { s with l.outKey := some true } t)
      ∧ (∃ t, exec (.outOfServiceKeyChange false) s = .next t ∧ t.l.outKey = some false
        ∧ (s.l.state = .outOfService → t.l.state = cageState s) ∧ (s.l.state ≠ .outOfService → t.l.state = s.l.state)))

/-- The RESET key of a landing: GATE_BREACH is cleared with the gate CLOSED_LOCKED, LOCK_FAIL unless the gate is
UNKNOWN, TRACK_DOUBT and the flash in any case. A breach cleared in NO_CAGE or CAGE_HERE has the state evaluated anew, so that
a cage parked here with no custodian is CLAIMING; otherwise the state stays. The RESET key of a skip point: CHUTE_HOLD, DOOR_HOLD and DOOR_STUCK are
cleared where the chute or door is closed, SKIP_LOST and UNREADY_START in any case; with the chute or door closed, the
working skip of DOOR_STUCK freed becomes DUMPED, and there, as for a skip of LOADED or DUMPED that is not posted, READY is
posted: its call record waits, the call timer starts, and its CALL is queued to the point's winder. In NO_SKIP a skip with the
dispatched mark that stands in position loses the mark, becomes the working skip, and is LOADED or DUMPED with READY posted.
An input not yet qualified reads as off by the model's choice (log 13). -/
def Obligations.ResetKeysClearFlags : Prop :=
  (∀ s : State, Runs s .landing →
     ∃ t, exec .landingResetKey s = .next t
       ∧ t.l.breach = (s.l.breach && gateOfInputs s != .closedLocked)
       ∧ t.l.lockFail = (s.l.lockFail && gateOfInputs s == .unknown)
       ∧ t.l.doubt = ⟨false, false⟩ ∧ t.l.flash = none
       ∧ t.l.call = s.l.call ∧ t.l.loops = s.l.loops ∧ t.w = s.w ∧ t.k = s.k ∧ SameNode s t
       ∧ (isOn s.l.outKey = false →
           let cleared : Bool := s.l.breach && gateOfInputs s == .closedLocked
           (s.l.state ≠ .noCage → s.l.state ≠ .cageHere → t.l.state = s.l.state ∧ t.l.release = s.l.release)
           ∧ (s.l.state = .noCage ∨ s.l.state = .cageHere →
               t.l.state =
                 (if cleared then
                   (if isNamed s && parkedHere s then .custody
                    else if parkedHere s && noneNamed s && !isLast s then .claiming else .noCage)
                  else s.l.state))))
  ∧ (∀ s : State, SkipRuns s →
       ∃ t, exec .skipPointResetKey s = .next t
         ∧ t.k.chuteHold = (s.k.chuteHold && !isShut s) ∧ t.k.skipLost = false ∧ t.k.unready = false
         ∧ t.k.doorStuck = (s.k.doorStuck && !isShut s)
         ∧ (isShut s = true → t.k.doorHold = false)
         ∧ (s.k.state = .doorStuck → isShut s = true → hasRole s .tipper = true → s.k.working.isSome = true →
             t.k.state = .dumped)
         ∧ (∀ p c w, isShut s = true → s.k.working = some p → served (pcfg s) p = some c → pointWinder s = some w →
             (s.k.state = .doorStuck
               ∨ (s.k.state = .loaded ∨ s.k.state = .dumped) ∧ s.k.posted = false ∧ s.k.present.at p = true) →
             t.k.posted = true ∧ t.k.call = some { comp := c.comp, status := .waiting, seq := none }
               ∧ t.k.callTimer = some (100 * s.config.callTimeout)
               ∧ (s.k.state ≠ .doorStuck → t.k.state = s.k.state)
               ∧ t.line.queue.call =
                   pushBounded 2 (onLine .call s) { target := w.node, ask := .ready c.comp } s.line.queue.call)
         ∧ (∀ p c w r x, isShut s = true → s.k.state = .noSkip → s.k.mark.at p = true → served (pcfg s) p = some c →
             pointWinder s = some w → pointView s = some r → r.motion.wind = .idle →
             (r.status.first = c.comp ∧ r.motion.x.a = some x
               ∨ r.status.first ≠ c.comp ∧ r.status.second = c.comp ∧ r.motion.x.b = some x) →
             (x - c.stop).natAbs ≤ (pcfg s).positionTol → s.k.present.at p = true →
             ((served (pcfg s) p.other).isSome = true → s.k.present.at p.other = false) →
             t.k.mark = s.k.mark.put p false ∧ t.k.working = some p
               ∧ t.k.state = (if hasRole s .tipper then .dumped else .loaded) ∧ t.k.posted = true
               ∧ t.k.call = some { comp := c.comp, status := .waiting, seq := none }
               ∧ t.k.callTimer = some (100 * s.config.callTimeout)
               ∧ t.line.queue.call =
                   pushBounded 2 (onLine .call s) { target := w.node, ask := .ready c.comp } s.line.queue.call)
         ∧ t.k.present = s.k.present ∧ t.k.closed = s.k.closed ∧ t.w = s.w ∧ t.l = s.l ∧ SameNode s t)

/-- A supervised loop found OPEN or SHORT for its time is faulty, one CLEAR or ACTIVE for its time is OK; a change of
the status in Running queues the ANNOUNCE of its compartment. A pass at an OK and armed loop in Running disarms it and
queues a MARKER with this moment as its edge time; with a validated report of a moving conveyance, its X known, no older than
1 s, TRACK_DOUBT is what the cross-check finds, and else it stays, as the other compartment's does. A loop that is faulty or not armed reports no pass; a rearm arms it. At a
current between two bands the loop keeps its class, so that it is faulty or sound as the command says; which class it
takes there is the model's choice (log 12). -/
def Obligations.LoopsAreSupervisedAndPassed : Prop :=
  (∀ (s : State) (w : Which) (i : Nat), supervised s w = true →
     ((i < 2000 ∨ 24000 < i) → ∃ t, exec (.loopFault w i) s = .next t
       ∧ (t.l.loops.at w).faulty = true ∧ (t.l.loops.at w).cls = (if i < 2000 then .opened else .short)
       ∧ (t.l.loops.at w).armed = (s.l.loops.at w).armed ∧ t.l.loops.at w.other = s.l.loops.at w.other
       ∧ markerFitted t w = false
       ∧ (s.step = .run → (s.l.loops.at w).faulty = false → onLine (.announce w) s = false →
           t.line.queue.announce.at w = ownAnnounce t w false)
       ∧ t.w = s.w ∧ t.k = s.k ∧ t.peers = s.peers)
     ∧ ((3000 ≤ i ∧ i ≤ 9000 ∨ 11000 ≤ i ∧ i ≤ 20000) → ∃ t, exec (.loopOk w i) s = .next t
       ∧ (t.l.loops.at w).faulty = false ∧ (t.l.loops.at w).cls = (if i ≤ 9000 then .clear else .active)
       ∧ (t.l.loops.at w).armed = (s.l.loops.at w).armed ∧ t.l.loops.at w.other = s.l.loops.at w.other
       ∧ markerFitted t w = true
       ∧ (s.step = .run → (s.l.loops.at w).faulty = true → onLine (.announce w) s = false →
           t.line.queue.announce.at w = ownAnnounce t w false)
       ∧ t.w = s.w ∧ t.k = s.k ∧ t.peers = s.peers)
     ∧ ((2000 ≤ i ∧ i < 3000 ∨ 9000 < i ∧ i < 11000 ∨ 20000 < i ∧ i ≤ 24000) →
         (∃ t, exec (.loopFault w i) s = .next t ∧ (t.l.loops.at w).faulty = true ∧ markerFitted t w = false
           ∧ (t.l.loops.at w).armed = (s.l.loops.at w).armed ∧ t.l.loops.at w.other = s.l.loops.at w.other
           ∧ (((s.l.loops.at w).cls = .opened ∨ (s.l.loops.at w).cls = .short) →
               (t.l.loops.at w).cls = (s.l.loops.at w).cls))
         ∧ ∃ t, exec (.loopOk w i) s = .next t ∧ (t.l.loops.at w).faulty = false ∧ markerFitted t w = true
             ∧ (t.l.loops.at w).armed = (s.l.loops.at w).armed ∧ t.l.loops.at w.other = s.l.loops.at w.other
             ∧ (((s.l.loops.at w).cls = .clear ∨ (s.l.loops.at w).cls = .active) →
                 (t.l.loops.at w).cls = (s.l.loops.at w).cls)))
  ∧ (∀ (s : State) (w : Which) (c : ServedConfig), Runs s .landing → served (pcfg s) w = some c → c.fitted = true →
       ((s.l.loops.at w).faulty = false → (s.l.loops.at w).armed = true → ∃ t, exec (.markerPass w) s = .next t
         ∧ t.l.loops.at w = { s.l.loops.at w with cls := .active, armed := false }
         ∧ t.line.queue.marker =
             pushBounded 4 (onLine .marker s) { comp := c.comp, edge := s.clock } s.line.queue.marker
         ∧ (∀ m x, latestFor s c.comp = some m →
             m.report.motion.x.get (convInReport m.report c.comp) = some x →
             let v := m.report.motion.v.get (convInReport m.report c.comp)
             s.clock - m.receivedAt ≤ 1000 → m.report.motion.validated = true → v ≠ 0 →
             t.l.doubt.at w = decide ((pcfg s).crossWindow <
               (x + Int.tdiv (v * ((s.clock - m.receivedAt : Nat) : Int)) 1000
                 - (if 0 < v then c.down else c.up)).natAbs))
         ∧ (latestFor s c.comp = none → t.l.doubt = s.l.doubt)
         ∧ (∀ m, latestFor s c.comp = some m →
             1000 < s.clock - m.receivedAt ∨ m.report.motion.x.get (convInReport m.report c.comp) = none
               ∨ m.report.motion.validated = false ∨ m.report.motion.v.get (convInReport m.report c.comp) = 0 →
             t.l.doubt = s.l.doubt)
         ∧ t.l.doubt.at w.other = s.l.doubt.at w.other
         ∧ t.w = s.w ∧ t.k = s.k ∧ SameNode s t)
       ∧ ((s.l.loops.at w).faulty = true ∨ (s.l.loops.at w).armed = false → ∃ t, exec (.markerPass w) s = .next t
         ∧ Follows { s with l.loops := s.l.loops.put w { s.l.loops.at w with cls := .active } } t
         ∧ t.line.queue.marker = s.line.queue.marker)
       ∧ ∃ t, exec (.passRearm w) s = .next t
           ∧ Follows { s with l.loops := s.l.loops.put w { s.l.loops.at w with cls := .clear, armed := true } } t)

/-! ## A skip point's inputs -/

/-- A skip becoming present: a level, and in Running a pass that queues a MARKER where a marker is fitted. A skip
becoming absent clears its dispatched mark; the working skip lost in LOADING or DUMPING, or in a posting state while
the winder shows IDLE, sets SKIP_LOST, and the point is in NO_SKIP. That a lost working skip leads to NO_SKIP whether or not
SKIP_LOST is set is read from the manual by inference (log 14). At a tipper with its door open, the working skip lost in DUMPING
or DOOR_STUCK, whatever stands in the other compartment by the reading of log 47, and in any state the loss that leaves no skip
present, set DOOR_HOLD; with its door closed no loss does. In
NO_SKIP, with the winder showing IDLE and the skip's X at
its stop, no other skip present and no dispatched mark, a skip becoming present is in position: it is the working skip, in
IN_POSITION or what follows there at once from the chute or door; in IN_POSITION a second skip becoming present ends the
position. An input not yet qualified reads as off by the model's choice (log 13). -/
def Obligations.SkipPresenceActs : Prop :=
  ∀ (s : State) (w : Which) (c : ServedConfig), SkipRuns s → served (pcfg s) w = some c →
    (s.k.present.at w = false → ∃ t, exec (.skipPresentEdge w) s = .next t
      ∧ t.k.present = s.k.present.put w true ∧ t.k.mark = s.k.mark
      ∧ t.line.queue.marker =
          (if c.fitted then pushBounded 4 (onLine .marker s) { comp := c.comp, edge := s.clock } s.line.queue.marker
           else s.line.queue.marker)
      ∧ (∀ r x, s.k.state = .noSkip → pointView s = some r → r.motion.wind = .idle →
          (r.status.first = c.comp ∧ r.motion.x.a = some x
            ∨ r.status.first ≠ c.comp ∧ r.status.second = c.comp ∧ r.motion.x.b = some x) →
          (x - c.stop).natAbs ≤ (pcfg s).positionTol →
          ((served (pcfg s) w.other).isSome = true → s.k.present.at w.other = false) → s.k.mark.at w = false →
          t.k.working = some w
            ∧ t.k.state = (if hasRole s .tipper then (if isShut s then .inPosition else .dumping)
                else if isShut s && !isOn s.k.complete && !anyFlag s.k then .loading else .inPosition))
      ∧ (s.k.state = .inPosition → s.k.working = some w.other → t.k.state = .noSkip ∧ t.k.working = none)
      ∧ t.w = s.w ∧ t.l = s.l ∧ SameNode s t)
    ∧ (s.k.present.at w = true → ∃ t, exec (.skipPresentLost w) s = .next t
      ∧ t.k.present = s.k.present.put w false ∧ t.k.mark = s.k.mark.put w false
      ∧ t.line.queue.marker = s.line.queue.marker
      ∧ (s.k.working = some w →
          (s.k.state = .loading ∨ s.k.state = .dumping ∨ s.k.state = .doorStuck →
            t.k.skipLost = true ∧ t.k.state = .noSkip ∧ t.k.working = none ∧ t.k.dumpTimer = none)
          ∧ (s.k.state = .loaded ∨ s.k.state = .dumped ∨ s.k.state = .ready →
            t.k.skipLost = (s.k.skipLost || windShown s .idle) ∧ t.k.state = .noSkip ∧ t.k.working = none
              ∧ t.k.call = none ∧ t.k.callTimer = none))
      ∧ (hasRole s .tipper = true →
          (isShut s = false →
            s.k.working = some w ∧ (s.k.state = .dumping ∨ s.k.state = .doorStuck)
              ∨ ((served (pcfg s) w.other).isSome = true → s.k.present.at w.other = false) →
            t.k.doorHold = true ∧ (skipReport t).stopHold = true)
          ∧ (isShut s = true → t.k.doorHold = s.k.doorHold))
      ∧ t.w = s.w ∧ t.l = s.l ∧ SameNode s t)

/-- The chute of a loader: an opening outside LOADING sets CHUTE_HOLD; loading complete with the chute closed in
LOADING gives LOADED with READY posted to the point's winder, unless a hold flag is set. The door of a tipper: an opening
in IN_POSITION begins DUMPING with its timer, one in any other state sets DOOR_HOLD; closed again in DUMPING it gives
DUMPED with READY posted; the dump timer running out in DUMPING gives DOOR_STUCK. A hold flag set in LOADED, DUMPED or READY
with the working skip present withdraws READY: the point is LOADED or DUMPED again with READY not posted, its call record
discarded and the call timer stopped, and its STATE shows no READY. -/
def Obligations.LoaderAndTipperInputsAct : Prop :=
  (∀ s : State, Runs s .loader →
     (isShut s = true → s.k.state ≠ .loading → ∃ t, exec (.chuteContactChange false) s = .next t
       ∧ t.k.closed = some false ∧ t.k.chuteHold = true ∧ (skipReport t).stopHold = true
       ∧ (∀ p, s.k.state = .loaded ∨ s.k.state = .dumped ∨ s.k.state = .ready → s.k.working = some p →
           s.k.present.at p = true → t.k.state = .loaded ∧ t.k.posted = false ∧ t.k.call = none ∧ t.k.callTimer = none
             ∧ t.k.working = some p ∧ (skipReport t).first.ready = false
             ∧ ∀ q, (skipReport t).second = some q → q.ready = false)
       ∧ t.w = s.w ∧ t.l = s.l ∧ SameNode s t)
     ∧ (s.k.state = .loading → isOn s.k.complete = false → ∃ t, exec (.chuteContactChange false) s = .next t
       ∧ Follows { s with k.closed := some false } t ∧ t.k.state = .loading)
     ∧ (∀ c p w q, (c = .loadingCompleteInput true ∧ isShut s = true
           ∨ c = .chuteContactChange true ∧ isOn s.k.complete = true) →
         s.k.state = .loading → anyFlag s.k = false → s.k.working = some p → served (pcfg s) p = some q →
         pointWinder s = some w →
         ∃ t, exec c s = .next t ∧ t.k.state = .loaded ∧ t.k.posted = true ∧ t.k.loadPermit = false
           ∧ t.k.call = some { comp := q.comp, status := .waiting, seq := none }
           ∧ t.k.callTimer = some (100 * s.config.callTimeout)
           ∧ t.line.queue.call =
               pushBounded 2 (onLine .call s) { target := w.node, ask := .ready q.comp } s.line.queue.call
           ∧ t.w = s.w ∧ t.l = s.l ∧ SameNode s t))
  ∧ (∀ s : State, Runs s .tipper →
       (isShut s = true → s.k.state = .inPosition → ∃ t, exec (.doorContactChange false) s = .next t
         ∧ t.k.state = .dumping ∧ t.k.dumpTimer = some (1000 * (pcfg s).dumpWindow) ∧ t.k.closed = some false
         ∧ t.w = s.w ∧ t.l = s.l ∧ SameNode s t)
       ∧ (isShut s = true → s.k.state ≠ .inPosition → ∃ t, exec (.doorContactChange false) s = .next t
         ∧ t.k.doorHold = true ∧ (skipReport t).stopHold = true
         ∧ (∀ p, s.k.state = .loaded ∨ s.k.state = .dumped ∨ s.k.state = .ready → s.k.working = some p →
             s.k.present.at p = true → t.k.state = .dumped ∧ t.k.posted = false ∧ t.k.call = none
               ∧ t.k.callTimer = none ∧ t.k.working = some p ∧ (skipReport t).first.ready = false
               ∧ ∀ q, (skipReport t).second = some q → q.ready = false)
         ∧ t.w = s.w ∧ t.l = s.l ∧ SameNode s t)
       ∧ (∀ p w q, s.k.state = .dumping → anyFlag s.k = false → s.k.working = some p → served (pcfg s) p = some q →
           pointWinder s = some w →
           ∃ t, exec (.doorContactChange true) s = .next t ∧ t.k.state = .dumped ∧ t.k.posted = true
             ∧ t.k.dumpTimer = none ∧ t.k.call = some { comp := q.comp, status := .waiting, seq := none }
             ∧ t.line.queue.call =
                 pushBounded 2 (onLine .call s) { target := w.node, ask := .ready q.comp } s.line.queue.call
             ∧ t.w = s.w ∧ t.l = s.l)
       ∧ (s.k.state = .dumping → s.k.dumpTimer.isSome = true → ∃ t, exec .dumpTimerExpiry s = .next t
           ∧ t.k.state = .doorStuck ∧ t.k.doorStuck = true ∧ t.k.dumpTimer = none ∧ (skipReport t).stopHold = true
           ∧ t.w = s.w ∧ t.l = s.l ∧ SameNode s t))
end

