-- ==== Sys2Proof/Laws/Quiet.lean ====
section
/-! SUPPORT. What settling at a winder is made of, said once: `Quiet s t` says that t comes from s by operations of
settling alone, and `settleWinder_quiet` that settling is such. Whatever those operations keep, settling keeps. -/

namespace Sys2Proof.Machine

open Sys2Proof

/-- The state with a new TRIP output and trip cause. -/
def noteTrip (b : Bool) (c : TripCause) (s : State) : State := { s with w.flt.trip := b, w.flt.tripCause := c }

/-- The state with the cause of a controlled stop written. -/
def noteStop (c : Cause) (s : State) : State := { s with w.seq.stopCause := some c }

/-- The state with a PARKED record for its custodian. -/
def noteParked (n : Nat) (s : State) : State :=
  { s with
    w.seq.record :=
      some
        { cause := tripCauseOf s, phase := .none, x := s.w.tr.x, v := s.w.tr.v
          kind := .parked { level := (parkedLevel s).getD 0, custodian := n } } }

/-- The state with what INSPECTION clears on entry. -/
def noteInspection (s : State) : State := { s with w.seq.lockout := false, w.panel.heldDir := .none }

/-- The state with A's class written. -/
def noteClass (k : LoadClass) (s : State) : State := { s with w.tr.cls.a := k }

/-- What operations of settling make of a state. -/
inductive Quiet (s : State) : State → Prop where
  | refl : Quiet s s
  | faults {t} : Quiet s t → Quiet s (updateFaults t)
  | stall {t} : Quiet s t → Quiet s (refreshStall t)
  | report {t} : Quiet s t → Quiet s (queueReport t)
  | trip {t} (b : Bool) (c : TripCause) : Quiet s t → Quiet s (noteTrip b c t)
  | rest {t} (w : WindState) : Quiet s t → Quiet s (restIn w t)
  | stopping {t} : Quiet s t → Quiet s (setWind .stopping t)
  | withdraw {t} : Quiet s t → Quiet s (withdrawPermit t)
  | surveyFailed {t} (o : SurveyOutcome) (f : Option (Nat × Conv)) : Quiet s t → Quiet s (markSurveyFailed o f t)
  | capture {t} (c : Cause) (p : Phase) : Quiet s t → Quiet s (captureLeg c p t)
  | parked {t} (n : Nat) : Quiet s t → Quiet s (noteParked n t)
  | returned {t} : t.w.seq.wind = .preparing → inResumedLeg t = false → Quiet s t → Quiet s (returnCalls t)
  | cause {t} (c : Cause) : Quiet s t → Quiet s (noteStop c t)
  | pair {t} (c l : Option Nat) : Quiet s t → Quiet s (setPair c l t)
  | remove {t} (c : Call) : Quiet s t → Quiet s (removeEntry c t)
  | mark {t} (c : Call) : Quiet s t → Quiet s (markEntry c t)
  | answer {t} (a : AnswerFrame) : Quiet s t → Quiet s (queueAnswer a t)
  | inspection {t} : Quiet s t → Quiet s (noteInspection t)
  | classed {t} (k : LoadClass) : Quiet s t → Quiet s (noteClass k t)
  | prepare {t u} (g : Leg) (calls : List Call) : Quiet s u → u.w.seq.wind = .idle →
      t.w.seq.list.length + calls.length ≤ u.w.seq.list.length → g.kind ≠ .resume → Quiet s t →
      Quiet s (prepare g calls t)

/-! ## The call list and the custody pair -/

theorem Quiet.dropEntry {s t : State} (h : Quiet s t) (c : Call) : Quiet s (dropEntry c t) := by
  unfold Machine.dropEntry
  split
  · exact h
  · split
    · exact .answer _ (.remove c h)
    · exact .mark c h

theorem Quiet.dropAll {s : State} (l : List Call) : ∀ {t : State}, Quiet s t →
    Quiet s (l.foldl (fun t c => Machine.dropEntry c t) t) := by
  induction l with
  | nil => exact fun h => h
  | cons c cs ih => exact fun h => ih (h.dropEntry c)

theorem Quiet.purgeDispatch {s t : State} (h : Quiet s t) : Quiet s (purgeDispatch t) := h.dropAll _

theorem Quiet.changePair {s t : State} (h : Quiet s t) (c l : Option Nat) : Quiet s (changePair c l t) := by
  unfold Machine.changePair
  split
  · exact h
  · exact Quiet.purgeDispatch (.pair c l h)

/-- What entries leaving the list leave alone: the wind state, and the list but for its shrinking. -/
theorem length_removeEntry (c : Call) (s : State) :
    (removeEntry c s).w.seq.list.length ≤ s.w.seq.list.length := by
  simp only [removeEntry]
  exact List.length_filter_le _ _

theorem length_dropEntry (c : Call) (s : State) :
    (dropEntry c s).w.seq.list.length ≤ s.w.seq.list.length := by
  unfold dropEntry
  split
  · exact Nat.le_refl _
  · split
    · unfold queueAnswer
      split
      · exact length_removeEntry c s
      · exact length_removeEntry c s
    · simp [markEntry]

theorem length_dropAll (l : List Call) : ∀ s : State,
    (l.foldl (fun t c => dropEntry c t) s).w.seq.list.length ≤ s.w.seq.list.length := by
  induction l with
  | nil => exact fun _ => Nat.le_refl _
  | cons c cs ih => exact fun s => Nat.le_trans (ih _) (length_dropEntry c s)

theorem length_changePair (c l : Option Nat) (s : State) :
    (changePair c l s).w.seq.list.length ≤ s.w.seq.list.length := by
  unfold changePair
  split
  · exact Nat.le_refl _
  · exact length_dropAll _ _

/-- An entry of the list that is removed makes it shorter. -/
theorem length_removeEntry_lt {c : Call} {s : State} (h : c ∈ s.w.seq.list) :
    (removeEntry c s).w.seq.list.length < s.w.seq.list.length := by
  simp only [removeEntry]
  refine List.length_filter_lt_length_iff_exists.mpr ⟨c, h, ?_⟩
  simp [sameCall]

/-! ## The sequencer's transitions -/

theorem Quiet.captureParked {s t : State} (h : Quiet s t) : Quiet s (captureParked t) := by
  unfold Machine.captureParked
  split
  · exact h
  · next n _ => exact Quiet.changePair (t := noteParked n t) (.parked n h) _ _

theorem Quiet.tripCapture {s t : State} (h : Quiet s t) : Quiet s (tripCapture t) := by
  unfold Machine.tripCapture
  split
  · exact h.captureParked
  · exact .capture _ _ h
  · exact .capture _ _ h
  · exact .capture _ _ h
  · split
    · exact .surveyFailed _ _ h
    · exact h
  · exact h

theorem Quiet.applyTrip {s t : State} (h : Quiet s t) : Quiet s (applyTrip t) := by
  have h1 : Quiet s (noteTrip (tripLevel t) (tripCauseAfter t) t) := .trip _ _ h
  unfold Machine.applyTrip
  split
  · exact .rest _ h1.tripCapture
  · exact h1

theorem Quiet.failSurvey {s t : State} (h : Quiet s t) (o : SurveyOutcome) (f : Option (Nat × Conv)) :
    Quiet s (failSurvey o f t) := by
  unfold Machine.failSurvey
  split
  · simp only
    split
    · exact .stopping (.surveyFailed o f h)
    · exact .rest _ (.surveyFailed o f h)
  · exact h

theorem Quiet.failStart {s t : State} (h : Quiet s t) (w : t.w.seq.wind = .preparing) (c : Cause) :
    Quiet s (failStart c t) := by
  unfold Machine.failStart
  split
  · exact .rest _ (.capture _ _ h)
  · next hr => exact .rest _ (.returned w (by simpa [isResume] using hr) h)

theorem Quiet.startCall {s t : State} (h : Quiet s t) (w : t.w.seq.wind = .idle) {c : Call}
    (hc : c ∈ t.w.seq.list) (d x : Int) : Quiet s (startCall c d x t) := by
  have h1 : Quiet s (Machine.changePair none none (removeEntry c t)) := (Quiet.remove c h).changePair _ _
  refine .prepare (u := t) _ _ h w ?_ (by simp) (Quiet.purgeDispatch (.classed _ h1))
  have a := length_removeEntry_lt hc
  have b := length_changePair none none (removeEntry c t)
  have d := length_dropAll
    (((noteClass (classAtStart c (Machine.changePair none none (removeEntry c t)).w.tr.cls.a)
      (Machine.changePair none none (removeEntry c t))).w.seq.list.filter
      fun e => e.kind == .dispatch && !isEntitled (noteClass (classAtStart c
        (Machine.changePair none none (removeEntry c t)).w.tr.cls.a)
        (Machine.changePair none none (removeEntry c t))) e.origin))
    (noteClass (classAtStart c (Machine.changePair none none (removeEntry c t)).w.tr.cls.a)
      (Machine.changePair none none (removeEntry c t)))
  simp only [List.length_cons, List.length_nil]
  exact Nat.le_trans (Nat.add_le_add_right (Nat.le_trans d b) _) a

theorem Quiet.startPair {s t : State} (h : Quiet s t) (w : t.w.seq.wind = .idle) {a b : Call}
    (ha : a ∈ t.w.seq.list) (hb : b ∈ t.w.seq.list) (hab : sameCall b a = false) : Quiet s (startPair a b t) := by
  refine .prepare (u := t) _ _ h w ?_ (by simp) (.remove b (.remove a h))
  have h1 : b ∈ (removeEntry a t).w.seq.list := by
    simp only [removeEntry, List.mem_filter]
    refine ⟨hb, ?_⟩
    rw [hab, Bool.and_false]
    rfl
  have := length_removeEntry_lt ha
  have := length_removeEntry_lt h1
  simp only [List.length_cons, List.length_nil]
  omega

theorem Quiet.enterInspection {s t : State} (h : Quiet s t) : Quiet s (enterInspection t) :=
  .inspection (.rest _ (h.changePair _ _))

/-! ## The stages -/

theorem Quiet.surveyStage {s t : State} (h : Quiet s t) : Quiet s (surveyStage t) := by
  unfold Machine.surveyStage
  split
  · exact h.failSurvey _ _
  · exact h

theorem Quiet.prepareStage {s t : State} (h : Quiet s t) : Quiet s (prepareStage t) := by
  unfold Machine.prepareStage
  split
  · next w =>
    split
    · exact h.failStart w _
    · exact h
  · exact h

theorem Quiet.runStage {s t : State} (h : Quiet s t) : Quiet s (runStage t) := by
  unfold Machine.runStage
  split
  · split
    · exact .stopping (.cause _ h)
    · exact h
  · exact h

theorem Quiet.inspectStage {s t : State} (h : Quiet s t) : Quiet s (inspectStage t) := by
  unfold Machine.inspectStage
  split
  · simp only
    split <;> split
    · exact .rest _ (.withdraw h)
    · exact .withdraw h
    · exact .rest _ h
    · exact h
  · exact h

theorem Quiet.inspectEntry {s t : State} (h : Quiet s t) : Quiet s (inspectEntry t) := by
  unfold Machine.inspectEntry
  split
  · exact h.enterInspection
  · exact h

/-- A candidate stands in the list. -/
theorem mem_serviceOrder {s : State} {c : Call} (h : serviceOrder s = some c) : c ∈ s.w.seq.list := by
  have live : ∀ {p : Call → Bool} {d : Call}, (liveCalls s).find? p = some d → d ∈ s.w.seq.list := fun h =>
    (List.mem_filter.mp (List.mem_of_find?_eq_some h)).1
  simp only [serviceOrder, Option.or_eq_some_iff] at h
  rcases h with h | ⟨-, h⟩
  · exact live h
  · split at h
    · cases h
    · rcases Option.or_eq_some_iff.mp h with h | ⟨-, h⟩
      · exact live h
      · exact live h

/-- The entries of a candidate pair stand in the list and are not one call. -/
theorem mem_readyPair {s : State} {a b : Call} (h : readyPair s = some (a, b)) :
    a ∈ s.w.seq.list ∧ b ∈ s.w.seq.list ∧ sameCall b a = false := by
  have live : ∀ {k : PointKind} {d : Call}, d ∈ readiesOf s k → d ∈ s.w.seq.list := fun h =>
    (List.mem_filter.mp (List.mem_filter.mp h).1).1
  have role : ∀ {k : PointKind} {d : Call}, d ∈ readiesOf s k → (peerOf s d.origin).role = .point k := fun h => by
    have := (List.mem_filter.mp h).2
    simp only [Bool.and_eq_true, beq_iff_eq] at this
    exact this.1.2
  obtain ⟨x, hx, hf⟩ := List.exists_of_findSome?_eq_some h
  obtain ⟨y, hy, he⟩ := Option.map_eq_some_iff.mp hf
  cases he
  have hy := List.mem_of_find?_eq_some hy
  refine ⟨live hx, live hy, ?_⟩
  simp only [sameCall, Bool.and_eq_false_imp, Bool.and_eq_true, beq_iff_eq]
  intro h2
  have := role hy
  rw [h2.2, role hx] at this
  cases this

theorem wind_removeEntry (c : Call) (s : State) : (removeEntry c s).w.seq.wind = s.w.seq.wind := rfl

theorem wind_dropEntry (c : Call) (s : State) : (dropEntry c s).w.seq.wind = s.w.seq.wind := by
  unfold dropEntry
  split
  · rfl
  · split
    · unfold queueAnswer
      split <;> rfl
    · rfl

theorem Quiet.followService {s : State} (b : Bool) (n : Nat) : ∀ {t : State}, Quiet s t →
    t.w.seq.wind = .idle → Quiet s (followService b n t) := by
  induction n generalizing b with
  | zero => exact fun h _ => h
  | succ n ih =>
    intro t h w
    unfold Machine.followService
    split
    · exact h
    · next c hc =>
      split
      · exact ih b (h.dropEntry c) (by rw [wind_dropEntry]; exact w)
      · split
        · exact h
        · exact ih true (.remove c h) w
        · exact h.startCall w (mem_serviceOrder hc) _ _

theorem Quiet.followPair {s t : State} (h : Quiet s t) (w : t.w.seq.wind = .idle) : Quiet s (followPair t) := by
  unfold Machine.followPair
  split
  · next hp =>
    obtain ⟨ha, hb, hab⟩ := mem_readyPair hp
    split
    · exact h.startPair w ha hb hab
    · exact h
  · exact h

theorem Quiet.idleStage {s t : State} (h : Quiet s t) (b : Bool) : Quiet s (idleStage b t) := by
  unfold Machine.idleStage
  split
  · next w =>
    split
    · exact h.followPair w
    · exact h.followService _ _ w
  · exact h

theorem Quiet.noteMotion {s t : State} (h : Quiet s t) (s0 : State) : Quiet s (noteMotion s0 t) := by
  unfold Machine.noteMotion
  split
  · exact .report h
  · exact h

theorem Quiet.noting {s t : State} (stage : State → State) (hs : ∀ {t}, Quiet s t → Quiet s (stage t))
    (h : Quiet s t) : Quiet s (noting stage t) := (hs h).noteMotion t

theorem Quiet.settleStages {s t : State} (h : Quiet s t) : Quiet s (settleStages t) :=
  .noting _ .inspectEntry <| .noting _ .inspectStage <| .noting _ .runStage <| .noting _ .prepareStage <|
    .noting _ .surveyStage <| .noting _ .applyTrip h

theorem Quiet.refreshFaults {s t : State} (h : Quiet s t) : Quiet s (refreshFaults t) := .faults (.stall h)

/-- Settling at a winder is made of these operations. -/
theorem settleWinder_quiet (s0 s : State) : Quiet s (settleWinder s0 s) :=
  (Quiet.noting (Machine.idleStage _) (fun h => h.idleStage _) (Quiet.refl.noteMotion s0).refreshFaults.settleStages).refreshFaults

end Sys2Proof.Machine
end

