-- ==== Sys2Proof/Laws/Follow.lean ====
section
/-! SUPPORT. The end of every command, said once: `finish` gives a state that follows from the command's effect
(`finish_follows`), and its pins are those of the rules (`finish_pins`). -/

namespace Sys2Proof.Machine

open Sys2Proof

/-- What the operations of settling leave alone. -/
def QuietKeeps (s t : State) : Prop := SameNode s t ∧ FollowsWinder s t ∧ t.pins = s.pins

/-- What settling can write of a winder's own items, with everything outside them. -/
def calmOf (s : State) : State :=
  { s with
    w := calmWinder s.w
    line :=
      { s.line with
        queue := { s.line.queue with periodic := none, answer := [] }
        pendingPeriodic := none, reportCounter := 0, sent := none } }

theorem calmOf_putReport (r : Report) (s : State) : calmOf (putReport r s) = calmOf s := by
  unfold putReport
  split <;> rfl

theorem calmOf_withdrawPermit (s : State) : calmOf (withdrawPermit s) = calmOf s := by
  unfold withdrawPermit
  split
  · split <;> rfl
  · rfl

theorem Quiet.calmOf_eq {s t : State} (h : Quiet s t) : calmOf t = calmOf s := by
  induction h with
  | refl => rfl
  | faults _ ih => exact ih
  | stall _ ih =>
    rw [← ih]
    unfold refreshStall
    split <;> rfl
  | report _ ih =>
    rw [← ih]
    unfold queueReport
    rw [calmOf_putReport]
    rfl
  | trip _ _ _ ih => exact ih
  | rest _ _ ih =>
    rw [← ih]
    unfold restIn
    rw [calmOf_withdrawPermit]
    rfl
  | stopping _ ih => exact ih
  | withdraw _ ih => rw [calmOf_withdrawPermit, ih]
  | surveyFailed _ _ _ ih => exact ih
  | capture _ _ _ ih =>
    rw [← ih]
    unfold captureLeg
    split <;> rfl
  | parked _ _ ih => exact ih
  | returned _ _ _ ih => exact ih
  | cause _ _ ih => exact ih
  | pair _ _ _ ih => exact ih
  | remove _ _ ih => exact ih
  | mark _ _ ih => exact ih
  | answer _ _ ih =>
    rw [← ih]
    unfold queueAnswer
    split <;> rfl
  | inspection _ ih => exact ih
  | classed _ _ ih => exact ih
  | prepare _ _ _ _ _ _ _ _ ih => exact ih

/-- Answers already queued stay, and the ones that settling queues stand behind them. -/
theorem Quiet.answers {s t : State} (h : Quiet s t) :
    ∃ more, t.line.queue.answer = s.line.queue.answer ++ more := by
  induction h with
  | refl => exact ⟨[], (List.append_nil _).symm⟩
  | stall _ ih =>
    unfold refreshStall
    split <;> exact ih
  | report _ ih =>
    unfold queueReport putReport
    split <;> exact ih
  | rest _ _ ih =>
    unfold restIn withdrawPermit
    split
    · split <;> exact ih
    · exact ih
  | withdraw _ ih =>
    unfold withdrawPermit
    split
    · split <;> exact ih
    · exact ih
  | capture _ _ _ ih =>
    unfold captureLeg
    split <;> exact ih
  | answer a _ ih =>
    unfold queueAnswer
    split
    · obtain ⟨more, ih⟩ := ih
      exact ⟨more ++ [a], by simp [ih]⟩
    · exact ih
  | prepare _ _ _ _ _ _ _ _ ih => exact ih
  | _ => assumption

theorem Quiet.keeps {s t : State} (h : Quiet s t) : QuietKeeps s t := by
  have e := h.calmOf_eq
  have f := congrArg (fun u : State => (u.pending, u.clock, u.step, u.loader, u.cfg, u.listen, u.peers, u.pins)) e
  have g := congrArg (fun u : State => (u.l, u.k, u.w)) e
  have l := congrArg (fun u : State =>
    (u.line.mode, u.line.activity, u.line.interframe, u.line.attempt, u.line.heardOwn, u.line.rxStart,
      u.line.rxMarkers, u.line.assembly)) e
  have q := congrArg (fun u : State =>
    (u.line.pendingAnnounce, u.line.queue.alarm, u.line.queue.announce, u.line.queue.announceFirst,
      u.line.queue.marker, u.line.queue.call)) e
  simp only [Prod.mk.injEq] at f g l q
  obtain ⟨f1, f2, f3, f4, f5, f6, f7, f8⟩ := f
  obtain ⟨q1, q2, q3, q4, q5, q6⟩ := q
  exact ⟨⟨f1, f2, f3, f4, f5, f6, f7, l⟩, ⟨g.1, g.2.1, g.2.2, q1, q2, q3, q4, q5, q6, h.answers⟩, f8⟩

/-! ## Shaft points -/

/-- What `applyKey` can write. -/
theorem applyKey_eq (s : State) :
    applyKey s = { s with l.state := (applyKey s).l.state, l.release := (applyKey s).l.release } := by
  unfold applyKey
  split <;> rfl

theorem applyKey_off {s : State} (h : isOn s.l.outKey = false) : applyKey s = s := by
  unfold applyKey
  rw [h]
  rfl

/-- A state without what settling at a skip point can write. -/
def calmPoint (s : State) : State :=
  { s with k := calmSkip s.k, line := { s.line with queue := { s.line.queue with call := [] } } }

theorem calmPoint_queueReady (c : Nat) (s : State) : calmPoint (queueReady c s) = calmPoint s := by
  unfold queueReady
  split <;> rfl

theorem calmPoint_postReady (s : State) : calmPoint (postReady s) = calmPoint s := by
  unfold postReady
  split
  · rfl
  · rw [calmPoint_queueReady]; rfl

theorem calmPoint_enterPosting (s : State) : calmPoint (enterPosting s) = calmPoint s := by
  unfold enterPosting
  simp only
  split
  · rfl
  · rw [calmPoint_postReady]; rfl

theorem calmPoint_workSkip (s : State) : calmPoint (workSkip s) = calmPoint s := by
  unfold workSkip
  split
  · split
    · split <;> rfl
    · split <;> rfl
  · split
    · exact calmPoint_enterPosting s
    · rfl
  · split
    · exact calmPoint_enterPosting s
    · rfl
  · rfl

theorem calmPoint_settleSkip (s : State) : calmPoint (settleSkip s) = calmPoint s := by
  unfold settleSkip
  rw [show ∀ u, calmPoint (permitLoad u) = calmPoint u from fun _ => rfl, calmPoint_workSkip]
  have hold : ∀ u, calmPoint (holdCheck u) = calmPoint u := fun u => by unfold holdCheck; split <;> rfl
  have door : ∀ u, calmPoint (doorCheck u) = calmPoint u := fun u => by unfold doorCheck; split <;> rfl
  rw [hold, door]

/-- What a STATE's queuing can write. -/
theorem queueState_eq (s : State) :
    queueState s =
      { s with
        l.stateTimer := (queueState s).l.stateTimer, k.stateTimer := (queueState s).k.stateTimer
        line.queue.periodic := (queueState s).line.queue.periodic
        line.pendingPeriodic := (queueState s).line.pendingPeriodic } := by
  unfold queueState restartStateTimer putState
  split <;> split <;> rfl

theorem noteState_eq (s0 s : State) :
    noteState s0 s =
      { s with
        l.stateTimer := (noteState s0 s).l.stateTimer, k.stateTimer := (noteState s0 s).k.stateTimer
        line.queue.periodic := (noteState s0 s).line.queue.periodic
        line.pendingPeriodic := (noteState s0 s).line.pendingPeriodic } := by
  unfold noteState
  split
  · exact queueState_eq s
  · rfl

/-- A STATE's queuing restarts the interval timer of the node's own role. -/
theorem noteState_timers (s0 s : State) :
    (hasRole s .landing = true → (noteState s0 s).k = s.k) ∧ (hasRole s .landing = false → (noteState s0 s).l = s.l) := by
  have put : ∀ (r : StateReport) (u : State), (putState r u).k = u.k ∧ (putState r u).l = u.l := fun r u => by
    unfold putState
    split <;> exact ⟨rfl, rfl⟩
  unfold noteState
  constructor <;> intro h <;> split
  · rw [queueState, (put _ _).1, restartStateTimer, if_pos h]
  · rfl
  · rw [queueState, (put _ _).2, restartStateTimer, if_neg (by simp [h])]
  · rfl

theorem hasRole_settlePoint (s : State) (r : Role) : hasRole (settlePoint s) r = hasRole s r := by
  unfold settlePoint
  split
  · split
    · unfold applyKey; split <;> rfl
    · have := congrArg State.cfg (calmPoint_settleSkip s)
      simp only [calmPoint] at this
      simp only [hasRole, this]
  · rfl

/-! ## The end of a command -/

theorem followsPoint_landing (s0 s : State) (h : hasRole s .landing = true) :
    SameNode s (noteState s0 (settlePoint s)) ∧ FollowsLanding s (noteState s0 (settlePoint s)) := by
  have hk : hasRole (settlePoint s) .landing = true := by rw [hasRole_settlePoint, h]
  have key : settlePoint s = s ∨ settlePoint s = applyKey s := by
    unfold settlePoint
    simp only [h, if_true]
    split
    · exact .inr rfl
    · exact .inl rfl
  have e := noteState_eq s0 (settlePoint s)
  have k := (noteState_timers s0 (settlePoint s)).1 hk
  generalize noteState s0 (settlePoint s) = t at e k
  have off : isOn s.l.outKey = false → settlePoint s = s := fun ho => by
    rcases key with a | a
    · exact a
    · rw [a, applyKey_off ho]
  have p : settlePoint s = { s with l.state := (settlePoint s).l.state, l.release := (settlePoint s).l.release } := by
    rcases key with a | a
    · rw [a]
    · rw [a]; exact applyKey_eq s
  have k' : t.k = s.k := by rw [k, p]
  have o : isOn s.l.outKey = false → t.l.state = s.l.state ∧ t.l.release = s.l.release := fun ho => by
    rw [e, off ho]; exact ⟨rfl, rfl⟩
  rw [p] at e
  refine ⟨?_, ?_, ?_, k', ?_, o⟩ <;> rw [e]
  · exact ⟨rfl, rfl, rfl, rfl, rfl, rfl, rfl, rfl, rfl, rfl, rfl, rfl, rfl, rfl, rfl⟩
  · exact ⟨rfl, rfl, rfl, rfl, rfl, rfl, rfl, rfl, rfl⟩
  · rfl

theorem followsPoint_skip (s0 s : State) (h : hasRole s .landing = false) :
    SameNode s (noteState s0 (settlePoint s)) ∧ FollowsSkip s (noteState s0 (settlePoint s)) := by
  have hk : hasRole (settlePoint s) .landing = false := by rw [hasRole_settlePoint, h]
  have c : calmPoint (settlePoint s) = calmPoint s := by
    unfold settlePoint
    simp only [h, Bool.false_eq_true, if_false]
    split
    · exact calmPoint_settleSkip s
    · rfl
  have e := noteState_eq s0 (settlePoint s)
  have l := (noteState_timers s0 (settlePoint s)).2 hk
  generalize noteState s0 (settlePoint s) = t at e l
  generalize settlePoint s = u at e l c
  have f := congrArg (fun u : State => (u.pending, u.clock, u.step, u.loader, u.cfg, u.listen, u.peers, u.w, u.l, u.k)) c
  have m := congrArg (fun u : State =>
    (u.line.mode, u.line.activity, u.line.interframe, u.line.attempt, u.line.heardOwn, u.line.rxStart,
      u.line.rxMarkers, u.line.assembly)) c
  have q := congrArg (fun u : State =>
    (u.line.pendingAnnounce, u.line.reportCounter, u.line.sent, u.line.queue.alarm, u.line.queue.announce,
      u.line.queue.announceFirst, u.line.queue.marker, u.line.queue.answer)) c
  simp only [Prod.mk.injEq] at f m q
  obtain ⟨f1, f2, f3, f4, f5, f6, f7, f8, f9, f10⟩ := f
  have l' : t.l = s.l := l.trans f9
  refine ⟨?_, ?_, l', ?_⟩ <;> rw [e]
  · exact ⟨f1, f2, f3, f4, f5, f6, f7, m⟩
  · exact ⟨f8, q⟩
  · exact f10

/-- A command's end leaves what `Follows` says. -/
theorem finish_follows (s0 s : State) : Follows s (finish s0 s) := by
  have up : ∀ {t}, SameNode s t → SameNode s (showPins t) := fun h => h
  by_cases hr : s.step = .listen ∨ s.step = .run
  · have hn : s.step ≠ .listen → s.step ≠ .run → finish s0 s = showPins s := by
      intro a b
      exact absurd hr (by simp [a, b])
    by_cases hw : hasRole s .winder = true
    · have e : finish s0 s = showPins (settleWinder s0 s) := by simp [finish, settle, hr, hw]
      have q := (settleWinder_quiet s0 s).keeps
      generalize settleWinder s0 s = u at e q
      refine ⟨?_, hn, ?_, ?_, ?_⟩
      · rw [e]; exact q.1
      · rw [e]; exact fun _ => q.2.1
      · intro hl
        simp only [hasRole, Option.any_eq_true, beq_iff_eq] at hw hl
        obtain ⟨c, hc, hr⟩ := hw
        obtain ⟨d, hd, hr'⟩ := hl
        rw [hc] at hd
        cases hd
        rw [hr] at hr'
        cases hr'
      · exact fun h => by rw [hw] at h; cases h
    · have e : finish s0 s = showPins (noteState s0 (settlePoint s)) := by simp [finish, settle, hr, hw]
      cases hl : hasRole s .landing with
      | true =>
        have p := followsPoint_landing s0 s hl
        generalize noteState s0 (settlePoint s) = u at e p
        refine ⟨?_, hn, fun h => absurd h hw, ?_, ?_⟩
        · rw [e]; exact p.1
        · rw [e]; exact fun _ => p.2
        · exact fun _ h => by rw [hl] at h; cases h
      | false =>
        have p := followsPoint_skip s0 s hl
        generalize noteState s0 (settlePoint s) = u at e p
        refine ⟨?_, hn, fun h => absurd h hw, ?_, ?_⟩
        · rw [e]; exact p.1
        · exact fun h => by rw [hl] at h; cases h
        · rw [e]; exact fun _ _ => p.2
  · have e : finish s0 s = showPins s := by simp [finish, settle, hr]
    rw [e]
    refine ⟨⟨rfl, rfl, rfl, rfl, rfl, rfl, rfl, rfl, rfl, rfl, rfl, rfl, rfl, rfl, rfl⟩, fun _ _ => rfl, ?_, ?_, ?_⟩
    · exact fun _ => ⟨rfl, rfl, rfl, rfl, rfl, rfl, rfl, rfl, rfl, [], (List.append_nil _).symm⟩
    · exact fun _ => ⟨⟨rfl, rfl, rfl, rfl, rfl, rfl, rfl, rfl, rfl⟩, rfl, rfl, rfl, fun _ => ⟨rfl, rfl⟩⟩
    · exact fun _ _ => ⟨⟨rfl, rfl, rfl, rfl, rfl, rfl, rfl, rfl, rfl⟩, rfl, rfl⟩

/-- Every command but the two of the supply ends by `finish`. -/
theorem exec_finish {c : Instr} {s t : State} (h : exec c s = .next t) (p : c ≠ .powerUp) (l : c ≠ .lossOfSupply) :
    ∃ x, t = finish s x := by
  cases c <;> first | exact absurd rfl p | exact absurd rfl l | exact ⟨_, (Host.Outcome.next.inj h).symm⟩

/-- Whatever the role, what a command's end may write of a winder's, a landing's and a skip point's items. -/
theorem Follows.calm {s t : State} (h : Follows s t) :
    calmWinder t.w = calmWinder s.w ∧ calmLanding t.l = calmLanding s.l ∧ calmSkip t.k = calmSkip s.k := by
  obtain ⟨-, -, w, l, k⟩ := h
  cases hw : hasRole s .winder with
  | true =>
    have := w hw
    exact ⟨this.2.2.1, by rw [this.1], by rw [this.2.1]⟩
  | false =>
    cases hl : hasRole s .landing with
    | true =>
      have := l hl
      exact ⟨by rw [this.1.1], this.2.2.2.1, by rw [this.2.2.1]⟩
    | false =>
      have := k hw hl
      exact ⟨by rw [this.1.1], by rw [this.2.1], this.2.2⟩

/-- An item that the mask leaves is the same on both sides: `calmWinder_get (·.tr.n) (fun _ => rfl) h`. -/
theorem calmWinder_get {α : Type} (f : Winder → α) (hf : ∀ w, f (calmWinder w) = f w) {w v : Winder}
    (h : calmWinder w = calmWinder v) : f w = f v := by
  rw [← hf w, h, hf v]

theorem calmLanding_get {α : Type} (f : Landing → α) (hf : ∀ l, f (calmLanding l) = f l) {l m : Landing}
    (h : calmLanding l = calmLanding m) : f l = f m := by
  rw [← hf l, h, hf m]

theorem calmSkip_get {α : Type} (f : SkipPoint → α) (hf : ∀ k, f (calmSkip k) = f k) {k j : SkipPoint}
    (h : calmSkip k = calmSkip j) : f k = f j := by
  rw [← hf k, h, hf j]

/-- The pins do not enter into what they show. -/
theorem pinsOf_showPins (s : State) : pinsOf (showPins s) = pinsOf s := rfl

/-- The pins after a command are those of the rules. -/
theorem finish_pins (s0 s : State) : PinsAgree (finish s0 s) := rfl

end Sys2Proof.Machine
end

