-- ==== Sys2Proof/Laws/Operations.lean ====
section
/-! SUPPORT. What the shared operations can do, said once for each: the peer table, the places of the transmit queue,
answers and the dropping of entries, PERMIT, pairs, the SLOW cap, a start condition lost. -/

namespace Sys2Proof.Machine

open Sys2Proof

/-! ## Pairs -/

@[simp] theorem Pair_get_set_self {α : Type} (p : Pair α) (c : Conv) (x : α) : (p.set c x).get c = x := by
  cases c <;> rfl

@[simp] theorem Pair_at_put_self {α : Type} (p : Pair α) (w : Which) (x : α) : (p.put w x).at w = x := by
  cases w <;> rfl

theorem Pair_get_set_other {α : Type} (p : Pair α) {c d : Conv} (x : α) (h : d ≠ c) : (p.set c x).get d = p.get d := by
  cases c <;> cases d <;> first | rfl | exact absurd rfl h

theorem Pair_at_put_other {α : Type} (p : Pair α) (w : Which) (x : α) : (p.put w x).at w.other = p.at w.other := by
  cases w <;> rfl

/-! ## The peer table (R198) -/

/-- A replaced entry is found under its own node. -/
theorem find_putPeer_self (p : Peer) (ps : List Peer) :
    (putPeer p ps).find? (fun q => q.node == p.node) = some p := by
  induction ps with
  | nil => simp [putPeer]
  | cons q qs ih =>
    unfold putPeer
    split
    · simp
    · next h =>
      split
      · simp
      · rw [List.find?_cons_of_neg (by simpa using fun e => h e.symm)]
        exact ih

/-- Every other node's entry is found as before. -/
theorem find_putPeer_other (p : Peer) (ps : List Peer) {n : Nat} (h : n ≠ p.node) :
    (putPeer p ps).find? (fun q => q.node == n) = ps.find? (fun q => q.node == n) := by
  have hp : (p.node == n) = false := by simpa using fun e => h e.symm
  induction ps with
  | nil => simp [putPeer, hp]
  | cons q qs ih =>
    unfold putPeer
    split
    · next e =>
      have hq : (q.node == n) = false := by simpa [e] using hp
      simp [hp, hq]
    · split
      · simp [List.find?_cons, hp]
      · simp [List.find?_cons, ih]

@[simp] theorem peerOf_setPeer_self (p : Peer) (s : State) : peerOf (setPeer p s) p.node = p := by
  simp [peerOf, setPeer, find_putPeer_self]

theorem peerOf_setPeer_other (p : Peer) (s : State) {n : Nat} (h : n ≠ p.node) :
    peerOf (setPeer p s) n = peerOf s n := by
  simp [peerOf, setPeer, find_putPeer_other p s.peers h]

/-- A node's entry carries the node's number. -/
@[simp] theorem peerOf_node (s : State) (n : Nat) : (peerOf s n).node = n := by
  unfold peerOf
  cases h : s.peers.find? fun p => p.node == n with
  | none => rfl
  | some p => simpa using List.find?_some h

/-- A table's nodes after an entry is put into it: its own and those from before. -/
theorem mem_putPeer {p q : Peer} {ps : List Peer} (h : q ∈ putPeer p ps) : q = p ∨ q ∈ ps := by
  induction ps with
  | nil => simpa [putPeer] using h
  | cons r rs ih =>
    unfold putPeer at h
    split at h
    · exact (List.mem_cons.mp h).imp id (List.mem_cons_of_mem r)
    · split at h
      · exact List.mem_cons.mp h
      · rcases List.mem_cons.mp h with e | e
        · exact .inr (e ▸ List.mem_cons_self)
        · exact (ih e).imp id (List.mem_cons_of_mem r)

/-- An entry put into a table of rising nodes keeps them rising. -/
theorem nodesRise_putPeer (p : Peer) {ps : List Peer} (h : nodesRise ps = true) : nodesRise (putPeer p ps) = true := by
  induction ps with
  | nil => rfl
  | cons q qs ih =>
    simp only [nodesRise, Bool.and_eq_true, List.all_eq_true, decide_eq_true_eq] at h
    obtain ⟨hq, hr⟩ := h
    unfold putPeer
    split
    · next e => simp only [nodesRise, Bool.and_eq_true, List.all_eq_true, decide_eq_true_eq, e]; exact ⟨hq, hr⟩
    · next e =>
      split
      · next l =>
        simp only [nodesRise, Bool.and_eq_true, List.all_eq_true, decide_eq_true_eq]
        refine ⟨fun r hm => ?_, hq, hr⟩
        rcases List.mem_cons.mp hm with e | e
        · exact e ▸ l
        · exact Nat.lt_trans l (hq r e)
      · next l =>
        simp only [nodesRise, Bool.and_eq_true, List.all_eq_true, decide_eq_true_eq]
        refine ⟨fun r hm => ?_, ih hr⟩
        rcases mem_putPeer hm with e' | e'
        · subst e'; omega
        · exact hq r e'

/-! ## The transmit queue (R181, R182) -/

theorem length_dropSecond_le {α : Type} (l : List α) : (dropSecond l).length ≤ l.length := by
  unfold dropSecond
  split <;> simp

/-- A place of limited room stays within it, whatever stands on the line, where it was within it. -/
theorem length_pushBounded_le {α : Type} {room : Nat} (b : Bool) (x : α) {q : List α} (two : 2 ≤ room)
    (h : q.length ≤ room) : (pushBounded room b x q).length ≤ room := by
  unfold pushBounded
  split
  · simp; omega
  · next full =>
    match q, h, full with
    | [], _, f => simp at f; omega
    | [_], _, f => simp at f; omega
    | _ :: _ :: rest, h, _ => cases b <;> simp [dropSecond] at h ⊢ <;> omega

/-- An answer queued joins the tail where there is room, and changes nothing else. -/
theorem queueAnswer_eq (a : AnswerFrame) (s : State) :
    queueAnswer a s = if answerRoom 1 s then { s with line.queue.answer := s.line.queue.answer ++ [a] } else s := rfl

/-- The answers after one has been queued: those from before, followed by at most that one. -/
theorem queueAnswer_answer (a : AnswerFrame) (s : State) :
    (queueAnswer a s).line.queue.answer = s.line.queue.answer ++ [a]
      ∨ ((queueAnswer a s).line.queue.answer = s.line.queue.answer ∧ answerRoom 1 s = false) := by
  unfold queueAnswer
  split
  · exact .inl rfl
  · next h => exact .inr ⟨rfl, by simpa using h⟩

/-- The ANSWER place stays within its room. -/
theorem length_queueAnswer_le (a : AnswerFrame) {s : State} (h : s.line.queue.answer.length ≤ Config.answerDepth) :
    (queueAnswer a s).line.queue.answer.length ≤ Config.answerDepth := by
  unfold queueAnswer
  split
  · next r => simpa [answerRoom] using r
  · exact h

/-! ## Entries that leave unserved (R77) -/

/-- An entry that leaves unserved: it was dropping already, or it is answered and removed together, or marked. -/
theorem dropEntry_cases (c : Call) (s : State) :
    (c.mark.isSome = true ∧ dropEntry c s = s)
      ∨ (c.mark = none ∧ answerRoom 1 s = true ∧ dropEntry c s = queueAnswer (droppedAnswer c) (removeEntry c s))
      ∨ (c.mark = none ∧ answerRoom 1 s = false ∧ dropEntry c s = markEntry c s) := by
  unfold dropEntry
  cases c.mark with
  | some n => exact .inl ⟨rfl, rfl⟩
  | none =>
    cases h : answerRoom 1 s
    · exact .inr (.inr ⟨rfl, rfl, by simp⟩)
    · exact .inr (.inl ⟨rfl, rfl, by simp⟩)

/-! ## PERMIT and captures (R46, R125) -/

/-- A PERMIT withdrawn leaves the reference that MOTION carries. -/
theorem withdrawPermit_shown (s : State) :
    (withdrawPermit s).w.env.shownSpeed = s.w.env.shownSpeed ∧ (withdrawPermit s).w.env.shownDir = s.w.env.shownDir := by
  unfold withdrawPermit
  cases h : s.w.seq.permit
  · exact ⟨rfl, rfl⟩
  · by_cases i : s.w.seq.wind = .inspection <;> simp [sendTelegram, zeroReference, i]

/-- After PERMIT is withdrawn it is off, and the reference is 0 and NONE. -/
theorem withdrawPermit_off (s : State) :
    (withdrawPermit s).w.seq.permit = false ∧ (withdrawPermit s).w.env.refSpeed = 0
      ∧ (withdrawPermit s).w.env.refDir = .none := by
  unfold withdrawPermit
  cases h : s.w.seq.permit
  · exact ⟨h, rfl, rfl⟩
  · by_cases i : s.w.seq.wind = .inspection <;> simp [sendTelegram, zeroReference, i]

/-- A capture without a leg changes nothing; with one it writes the record and empties the slot, and no more. -/
theorem captureLeg_cases (cause : Cause) (phase : Phase) (s : State) :
    (s.w.seq.leg = none ∧ captureLeg cause phase s = s)
      ∨ ∃ g, s.w.seq.leg = some g ∧ captureLeg cause phase s =
          { s with
            w.seq.record :=
              some
                { cause := cause, phase := phase, x := s.w.tr.x, v := s.w.tr.v
                  kind := .moving (movingAtCapture s g) }
            w.seq.slot := [] } := by
  unfold captureLeg
  cases h : s.w.seq.leg with
  | none => exact .inl ⟨rfl, rfl⟩
  | some g => exact .inr ⟨g, rfl, rfl⟩

/-! ## Hearing (R199) -/

/-- A hearing makes its sender's entry PRESENT with a fresh silence timer, and keeps the rest of it. -/
theorem peerOf_hear_self (n : Nat) (s : State) :
    peerOf (hear n s) n = { peerOf s n with heard := .present, silence := some (100 * s.config.silenceTimeout) } := by
  have h := peerOf_setPeer_self (heardPeer s.config.silenceTimeout (peerOf s n)) s
  rwa [show (heardPeer s.config.silenceTimeout (peerOf s n)).node = n from peerOf_node s n] at h

theorem peerOf_hear_other {n m : Nat} (s : State) (h : m ≠ n) : peerOf (hear n s) m = peerOf s m :=
  peerOf_setPeer_other _ s (by rw [show (heardPeer s.config.silenceTimeout (peerOf s n)).node = n from peerOf_node s n]; exact h)

/-! ## The own number (R188, R189) -/

/-- A frame with the own number is noted while an attempt runs, and brings FAULTED at once otherwise. -/
theorem hearOwn_cases (s : State) :
    (s.line.attempt.isSome = true ∧ hearOwn s = { s with line.heardOwn := true })
      ∨ (s.line.attempt = none ∧ hearOwn s = enterDuplicate s) := by
  unfold hearOwn
  cases h : s.line.attempt with
  | none => exact .inr ⟨rfl, by simp⟩
  | some a => exact .inl ⟨rfl, by simp⟩

/-- An attempt's end acts on its place, and then brings FAULTED where the own number was heard while it ran. -/
theorem endAttempt_cases (e : AttemptEnding) (s : State) :
    (s.line.attempt = none ∧ endAttempt e s = s)
      ∨ ∃ a, s.line.attempt = some a
          ∧ (s.line.heardOwn = false ∧ endAttempt e s = attemptEnds e a s
            ∨ s.line.heardOwn = true ∧ endAttempt e s = enterDuplicate (attemptEnds e a s)) := by
  unfold endAttempt
  cases s.line.attempt with
  | none => exact .inl ⟨rfl, rfl⟩
  | some a => cases s.line.heardOwn <;> exact .inr ⟨a, rfl, by simp⟩

/-! ## The acceleration start (R32) -/

/-- The cap term counts as one restriction, present exactly while the term is (R35, R45). -/
theorem restrictionsAt_cap (s : State) :
    (Restriction.cap ∈ restrictionsAt s) ↔ governs s = true ∧ (capTerm s).isSome = true := by
  unfold restrictionsAt
  cases governs s <;> cases capTerm s <;> simp [zoneApplies]

/-- Outside the governing states no restriction applies. -/
theorem restrictionsAt_not_governing {s : State} (h : governs s = false) : restrictionsAt s = [] := by
  simp [restrictionsAt, h]

/-- In STOPPING a latched acceleration start stays. -/
theorem accAt_stopping {s : State} {l : Latch} (h : s.w.seq.wind = .stopping) (k : s.w.env.acc = some l) :
    accAt s = some l := by
  simp [accAt, accAgain, isLegState, h, k]

/-! ## The SLOW cap (R35) -/

/-- The SLOW cap at a sample: the one in force, with its value and raising point, where it stays, and otherwise one raised at
this sample or none (R35). -/
theorem slowAt_cases (s : State) :
    (∃ c, s.w.env.capSlow = some c ∧ slowStays s c = true ∧ slowAt s = some (keepSlow s c))
      ∨ ((∀ c, s.w.env.capSlow = some c → slowStays s c = false) ∧ slowAt s = newSlow s) := by
  unfold slowAt
  cases h : s.w.env.capSlow with
  | none => exact .inr ⟨fun _ e => (nomatch e), rfl⟩
  | some c => cases k : slowStays s c <;> simp [Option.filter, k]

/-- What is kept of a SLOW cap that stays: its value, its raising point and whether it is flat. -/
theorem keepSlow_point (s : State) (c : Cap) :
    (keepSlow s c).value = c.value ∧ (keepSlow s c).n = c.n ∧ (keepSlow s c).v0 = c.v0 ∧ (keepSlow s c).flat = c.flat :=
  ⟨rfl, rfl, rfl, rfl⟩

/-- The cap that crosses into or out of the governing states is one that a lasting kind has raised in them. -/
theorem lastingCap_eq_some {c : Option Cap} {d : Cap} : lastingCap c = some d ↔ c = some d ∧ d.kept = false := by
  simp [lastingCap, Option.filter_eq_some_iff]

/-! ## A start condition lost (R98) -/

/-- A member that bars a start gives the kind of a flag that its STATE carries, or its node (R98). -/
theorem barCause_cases (s : State) (n : Nat) :
    (flaggedKind s n = none ∧ barCause s n = .node n)
      ∨ ∃ k, (k = .tracking ∨ k = .gateBreach) ∧ flaggedKind s n = some k ∧ barCause s n = .fault k := by
  unfold barCause
  cases h : flaggedKind s n with
  | none => exact .inl ⟨rfl, rfl⟩
  | some k =>
    refine .inr ⟨k, ?_, rfl, rfl⟩
    obtain ⟨r, -, e⟩ := Option.bind_eq_some_iff.mp h
    split at e
    · exact .inl (Option.some.inj e).symm
    · split at e
      · exact .inr (Option.some.inj e).symm
      · cases e

/-- A turned-away landing gives its node where it has gone SILENT, otherwise what a STATE that fails a condition gives
(R98, log 50). -/
theorem targetCause_level {s : State} {l : Nat} {p : Peer} (h : landingAt s (cageComp s) l = some p) :
    targetCause s (.level l) = if statusOf p = .silent then .node p.node else barCause s p.node := by
  simp only [targetCause, h]

/-- A pair's turned-away point gives its node (log 50). -/
theorem targetCause_points (s : State) (q : Pair Nat) :
    targetCause s (.points q) = .node (if statusOf (peerOf s q.a) = .silent then q.a else q.b) := rfl

/-- No start condition is lost exactly where no kind is ACTIVE under STOP, no member bars the start, the target has not
turned away and the selector is at NORMAL (R98). -/
theorem lostCause_eq_none (s : State) :
    lostCause s = none ↔
      firstUnder s .stop = none ∧ startBar s = none ∧ (legTarget s).filter (targetAway s) = none
        ∧ s.w.panel.selector = .normal := by
  unfold lostCause
  cases firstUnder s .stop with
  | some k => simp
  | none =>
    cases startBar s with
    | some n => simp
    | none => cases (legTarget s).filter (targetAway s) <;> simp

/-! ## A landing's gate and loops (R144, R149, R156) -/

/-- What the gate contacts do to the state of an unheld cage: nothing, or its evaluation anew. -/
theorem landingAtGate_cases (b : Bool) (s : State) : landingAtGate b s = s ∨ landingAtGate b s = evaluateCage s := by
  unfold landingAtGate
  split
  · exact .inr rfl
  · exact .inr rfl
  · cases b <;> simp
  · exact .inl rfl

/-- Between two bands a loop found faulty is OPEN or SHORT. -/
theorem faultyClass_between {i : Nat} (h : loopBand i = none) (c : LoopClass) :
    faultyClass i c = .opened ∨ faultyClass i c = .short := by
  unfold faultyClass
  rw [h]
  cases c <;> simp <;> omega

/-- Between two bands a loop found sound is CLEAR or ACTIVE. -/
theorem soundClass_between {i : Nat} (h : loopBand i = none) (c : LoopClass) :
    soundClass i c = .clear ∨ soundClass i c = .active := by
  unfold soundClass
  rw [h]
  cases c <;> simp

/-! ## The trip cause, and the place that a dropping entry takes (R77, R118) -/

/-- The trip cause that an event leaves: the kept one while TRIP is released or stays asserted, else the first kind that
asserts it, where one does. -/
theorem tripCauseAfter_cases (s : State) :
    ((tripLevel s = false ∨ s.w.flt.trip = true ∨ trippingKind s = none) ∧ tripCauseAfter s = s.w.flt.tripCause)
      ∨ ∃ k, tripLevel s = true ∧ s.w.flt.trip = false ∧ trippingKind s = some k ∧ tripCauseAfter s = .fault k := by
  unfold tripCauseAfter
  cases h : tripLevel s <;> cases h' : s.w.flt.trip <;> cases hk : trippingKind s <;> simp

/-- Telegram byte 7 with TRIP released. -/
theorem tripByte_released {s : State} (h : tripLevel s = false) : tripByte s = 255 := by simp [tripByte, h]

/-- Telegram byte 7 with TRIP asserted. -/
theorem tripByte_asserted {s : State} (h : tripLevel s = true) : tripByte s = tripCauseCode (tripCauseAfter s) := by
  simp [tripByte, h]

/-- What a freed ANSWER place gives: nothing where no entry is dropping or no room is left, else the earliest-marked entry's
answer, the entry removed. -/
theorem serveDropping_cases (s : State) :
    ((earliestMarked s.w.seq.list = none ∨ answerRoom 1 s = false) ∧ serveDropping s = s)
      ∨ ∃ c, earliestMarked s.w.seq.list = some c ∧ answerRoom 1 s = true
          ∧ serveDropping s = queueAnswer (droppedAnswer c) (removeEntry c s) := by
  unfold serveDropping
  cases hc : earliestMarked s.w.seq.list <;> cases hr : answerRoom 1 s <;> simp

/-! ## The line controller disabled (R178) -/

@[simp] theorem disableLine_attempt (l : LineController) : (disableLine l).attempt = none := rfl

@[simp] theorem disableLine_mode (l : LineController) : (disableLine l).mode = .disabled := rfl

/-- With no attempt on the line its end changes nothing. -/
theorem endAttempt_of_none {s : State} (h : s.line.attempt = none) (e : AttemptEnding) : endAttempt e s = s := by
  simp only [endAttempt, h]

end Sys2Proof.Machine
end

