-- ==== Sys2Proof/Laws/Settle.lean ====
section
/-! SUPPORT. How fault kinds move when conditions only go, and what settling makes of a winder that is not moving
(`settle_idles`). -/

namespace Sys2Proof.Machine

open Sys2Proof

/-! ## Fault kinds -/

theorem get_build {α : Type} (f : FaultKind → α) (k : FaultKind) : (PerFault.build f).get k = f k := by
  cases k <;> rfl

theorem ext_get {α : Type} {p q : PerFault α} (h : ∀ k, p.get k = q.get k) : p = q := by
  have e : p = PerFault.build p.get := rfl
  have f : q = PerFault.build q.get := rfl
  rw [e, f, funext h]

theorem get_set {α : Type} (p : PerFault α) (k j : FaultKind) (x : α) :
    (p.set k x).get j = if j = k then x else p.get j := by
  unfold PerFault.set
  rw [get_build]

theorem mem_faultKinds (k : FaultKind) : k ∈ FaultKind.all := by cases k <;> decide

/-- A kind's entry after an update. -/
theorem updateFaults_get (s : State) (k : FaultKind) :
    (updateFaults s).w.flt.kinds.get k
      = ⟨condition s k, nextFaultState (reactionOf s k) (faultState s k) (condition s k)⟩ := by
  simp only [updateFaults]
  exact get_build _ k

theorem condition_updateFaults (s : State) (k : FaultKind) : condition (updateFaults s) k = condition s k := by
  cases k <;> rfl

theorem nextFaultState_idem (r : Reaction) (f : FaultState) (b : Bool) :
    nextFaultState r (nextFaultState r f b) b = nextFaultState r f b := by
  cases b <;> cases f <;> cases r <;> rfl

/-- An update settles every kind. -/
theorem updateFaults_settled (s : State) : FaultsSettled (updateFaults s) := by
  have : (updateFaults (updateFaults s)).w.flt.kinds = (updateFaults s).w.flt.kinds := by
    refine ext_get fun k => ?_
    rw [updateFaults_get, updateFaults_get, condition_updateFaults, faultState, updateFaults_get]
    simp only [show reactionOf (updateFaults s) k = reactionOf s k from rfl, nextFaultState_idem]
  exact congrArg (fun x => { updateFaults s with w := { (updateFaults s).w with flt :=
    { (updateFaults s).w.flt with kinds := x } } }) this

/-- A settled kind is ACTIVE exactly while its condition is present. -/
theorem FaultsSettled.active_iff {s : State} (h : FaultsSettled s) (k : FaultKind) :
    isActive s k = condition s k := by
  have e := updateFaults_get s k
  rw [h] at e
  have f : faultState s k = nextFaultState (reactionOf s k) (faultState s k) (condition s k) :=
    congrArg KindState.state e
  unfold isActive
  rw [f]
  cases condition s k <;> cases faultState s k <;> cases reactionOf s k <;> rfl

theorem condition_refreshStall {s : State} {k : FaultKind} (h : condition (refreshStall s) k = true) :
    condition s k = true := by
  unfold refreshStall at h
  split at h
  · cases k <;> exact h
  · cases k <;> try exact h
    simp only [condition, Bool.or_eq_true] at h ⊢
    rcases h with (h | h) | h
    · exact .inl (.inl h)
    · cases h
    · exact .inr h

/-- From a settled state, a refresh only lets kinds go. -/
theorem FaultsSettled.refresh_active {s : State} (h : FaultsSettled s) {k : FaultKind}
    (a : isActive (refreshFaults s) k = true) : isActive s k = true := by
  rw [show refreshFaults s = updateFaults (refreshStall s) from rfl, (updateFaults_settled _).active_iff,
    condition_updateFaults] at a
  rw [h.active_iff]
  exact condition_refreshStall a

theorem FaultsSettled.refresh_clear {s : State} (h : FaultsSettled s) {k : FaultKind}
    (c : faultState s k = .clear) : faultState (refreshFaults s) k = .clear := by
  have na : condition s k = false := by
    rw [← h.active_iff, isActive, c]
    rfl
  have nc : condition (refreshStall s) k = false := by
    cases hc : condition (refreshStall s) k with
    | false => rfl
    | true => rw [condition_refreshStall hc] at na; cases na
  have fs : faultState (refreshStall s) k = .clear := by
    unfold refreshStall
    split <;> exact c
  rw [refreshFaults, faultState, updateFaults_get, nc, fs]
  rfl

theorem refreshStall_wind (s : State) : (refreshStall s).w.seq = s.w.seq := by
  unfold refreshStall
  split <;> rfl

theorem refreshStall_cfg (s : State) : (refreshStall s).cfg = s.cfg := by
  unfold refreshStall
  split <;> rfl

theorem refreshStall_flt (s : State) : (refreshStall s).w.flt = s.w.flt := by
  unfold refreshStall
  split <;> rfl

theorem refreshFaults_seq (s : State) : (refreshFaults s).w.seq = s.w.seq := refreshStall_wind s

theorem kindTrips_iff (s : State) (k : FaultKind) :
    kindTrips s k = true ↔
      (reactionOf s k = .tripLatched ∧ faultState s k ≠ .clear) ∨ (reactionOf s k = .tripAuto ∧ isActive s k = true) := by
  unfold kindTrips isActive
  cases reactionOf s k <;> simp

/-- From a settled state with TRIP released, a refresh leaves it released. -/
theorem FaultsSettled.refresh_trip {s : State} (h : FaultsSettled s) (t : tripLevel s = false) :
    tripLevel (refreshFaults s) = false := by
  simp only [tripLevel, Bool.or_eq_false_iff, beq_eq_false_iff_ne] at t ⊢
  obtain ⟨⟨p, w⟩, a⟩ := t
  refine ⟨⟨?_, ?_⟩, ?_⟩
  · have : (refreshFaults s).w.flt.powerUpTrip = (refreshStall s).w.flt.powerUpTrip := rfl
    rw [this, refreshStall_flt, p]
  · rw [refreshFaults_seq]; exact w
  · rw [List.any_eq_false] at a ⊢
    intro k hk hp
    have na := a k hk
    refine na ?_
    have r : reactionOf (refreshFaults s) k = reactionOf s k := by
      show reactionOf (refreshStall s) k = _
      unfold reactionOf wcfg State.config
      rw [refreshStall_cfg]
    rw [kindTrips_iff] at hp ⊢
    rw [r] at hp
    rcases hp with ⟨hr, hf⟩ | ⟨hr, hf⟩
    · exact .inl ⟨hr, fun c => hf (h.refresh_clear c)⟩
    · exact .inr ⟨hr, h.refresh_active hf⟩

/-! ## Fault kinds and TRIP through settling -/

/-- The configuration and the wind's own kinds of condition are no item of settling. -/
theorem Quiet.config {s t : State} (h : Quiet s t) : t.cfg = s.cfg := h.keeps.1.2.2.2.2.1

theorem reactionOf_congr {s t : State} (h : t.cfg = s.cfg) (k : FaultKind) : reactionOf t k = reactionOf s k := by
  unfold reactionOf wcfg State.config
  rw [h]

/-- One operation of settling: faults and the stall timer apart, no kind and no condition changes. -/
theorem Quiet.kinds_induction {s : State} (P : State → Prop) (start : P s)
    (update : ∀ t, P t → P (updateFaults t)) (stall : ∀ t, P t → P (refreshStall t))
    (other : ∀ t u : State, u.cfg = t.cfg → u.w.flt.kinds = t.w.flt.kinds → u.w.flt.powerUpTrip = t.w.flt.powerUpTrip →
      (∀ k, condition u k = condition t k) → P t → P u) :
    ∀ t, Quiet s t → P t := by
  have same : ∀ t u : State, P t → u.cfg = t.cfg → u.peers = t.peers → u.w.flt.kinds = t.w.flt.kinds →
      u.w.flt.powerUpTrip = t.w.flt.powerUpTrip → u.w.flt.atSample = t.w.flt.atSample →
      u.w.flt.overwind = t.w.flt.overwind → u.w.flt.overrun = t.w.flt.overrun →
      u.w.flt.duplicate = t.w.flt.duplicate → u.w.flt.alarmSet = t.w.flt.alarmSet →
      u.w.tr.negative = t.w.tr.negative → u.w.tr.stallRaised = t.w.tr.stallRaised → P u := by
    intro t u h c p k q a1 a2 a3 a4 a5 a6 a7
    refine other t u c k q (fun j => ?_) h
    have m : members u = members t := by
      unfold members isMember wcfg State.config
      rw [c, p]
    have d : landingDoubt u = landingDoubt t := by
      unfold landingDoubt showsDoubt wcfg State.config
      rw [m, c]
    have e : landingBreach u = landingBreach t := by unfold landingBreach; rw [m]
    have f : memberSilent u = memberSilent t := by unfold memberSilent; rw [m]
    cases j <;> simp only [condition, a1, a2, a3, a4, a5, a6, a7, d, e, f]
  intro t h
  induction h with
  | refl => exact start
  | faults _ ih => exact update _ ih
  | stall _ ih => exact stall _ ih
  | report _ ih =>
    unfold queueReport putReport
    split <;> exact same _ _ ih rfl rfl rfl rfl rfl rfl rfl rfl rfl rfl rfl
  | rest _ _ ih =>
    unfold restIn withdrawPermit
    split
    · split <;> exact same _ _ ih rfl rfl rfl rfl rfl rfl rfl rfl rfl rfl rfl
    · exact same _ _ ih rfl rfl rfl rfl rfl rfl rfl rfl rfl rfl rfl
  | withdraw _ ih =>
    unfold withdrawPermit
    split
    · split <;> exact same _ _ ih rfl rfl rfl rfl rfl rfl rfl rfl rfl rfl rfl
    · exact same _ _ ih rfl rfl rfl rfl rfl rfl rfl rfl rfl rfl rfl
  | capture _ _ _ ih =>
    unfold captureLeg
    split <;> exact same _ _ ih rfl rfl rfl rfl rfl rfl rfl rfl rfl rfl rfl
  | answer _ _ ih =>
    unfold queueAnswer
    split <;> exact same _ _ ih rfl rfl rfl rfl rfl rfl rfl rfl rfl rfl rfl
  | prepare _ _ _ _ _ _ _ _ ih => exact same _ _ ih rfl rfl rfl rfl rfl rfl rfl rfl rfl rfl rfl
  | trip _ _ _ ih => exact same _ _ ih rfl rfl rfl rfl rfl rfl rfl rfl rfl rfl rfl
  | stopping _ ih => exact same _ _ ih rfl rfl rfl rfl rfl rfl rfl rfl rfl rfl rfl
  | surveyFailed _ _ _ ih => exact same _ _ ih rfl rfl rfl rfl rfl rfl rfl rfl rfl rfl rfl
  | parked _ _ ih => exact same _ _ ih rfl rfl rfl rfl rfl rfl rfl rfl rfl rfl rfl
  | returned _ _ _ ih => exact same _ _ ih rfl rfl rfl rfl rfl rfl rfl rfl rfl rfl rfl
  | cause _ _ ih => exact same _ _ ih rfl rfl rfl rfl rfl rfl rfl rfl rfl rfl rfl
  | pair _ _ _ ih => exact same _ _ ih rfl rfl rfl rfl rfl rfl rfl rfl rfl rfl rfl
  | remove _ _ ih => exact same _ _ ih rfl rfl rfl rfl rfl rfl rfl rfl rfl rfl rfl
  | mark _ _ ih => exact same _ _ ih rfl rfl rfl rfl rfl rfl rfl rfl rfl rfl rfl
  | inspection _ ih => exact same _ _ ih rfl rfl rfl rfl rfl rfl rfl rfl rfl rfl rfl
  | classed _ _ ih => exact same _ _ ih rfl rfl rfl rfl rfl rfl rfl rfl rfl rfl rfl

/-- A kind under TRIP_LATCHED that is not CLEAR is not cleared by settling (R116). -/
theorem Quiet.latched {s t : State} (h : Quiet s t) {k : FaultKind} (r : reactionOf s k = .tripLatched)
    (f : faultState s k ≠ .clear) : faultState t k ≠ .clear := by
  refine (Quiet.kinds_induction (fun u => u.cfg = s.cfg ∧ faultState u k ≠ .clear) ⟨rfl, f⟩ ?_ ?_ ?_ t h).2
  · rintro u ⟨c, hu⟩
    refine ⟨c, ?_⟩
    rw [faultState, updateFaults_get, reactionOf_congr c, r]
    revert hu
    cases faultState u k <;> cases condition u k <;> simp [nextFaultState]
  · rintro u ⟨c, hu⟩
    refine ⟨(refreshStall_cfg u).trans c, ?_⟩
    rw [faultState, refreshStall_flt]
    exact hu
  · rintro u v c k' - - ⟨d, hu⟩
    refine ⟨c.trans d, ?_⟩
    rw [faultState, k']
    exact hu

/-- Every kind whose condition is present is ACTIVE. -/
def Shown (s : State) : Prop := ∀ k, condition s k = true → isActive s k = true

theorem FaultsSettled.shown {s : State} (h : FaultsSettled s) : Shown s := fun k c => by rw [h.active_iff, c]

/-- Whether a kind asserts TRIP (R118). -/
def kindsTrip (s : State) : Bool := FaultKind.all.any (kindTrips s)

/-- Where every condition present is shown, settling lets no kind assert TRIP that did not. -/
theorem Quiet.trip_mono {s t : State} (h : Quiet s t) (w : Shown s) (k : FaultKind) (kt : kindTrips t k = true) :
    kindTrips s k = true := by
  refine (Quiet.kinds_induction (fun u => u.cfg = s.cfg ∧ Shown u ∧ (kindTrips u k = true → kindTrips s k = true))
    ⟨rfl, w, id⟩ ?_ ?_ ?_ t h).2.2 kt
  · rintro u ⟨c, hu, ht⟩
    refine ⟨c, (updateFaults_settled u).shown, fun a => ht ?_⟩
    rw [kindTrips_iff] at a ⊢
    have e : faultState (updateFaults u) k = nextFaultState (reactionOf u k) (faultState u k) (condition u k) :=
      congrArg KindState.state (updateFaults_get u k)
    have act := hu k
    simp only [isActive, show reactionOf (updateFaults u) k = reactionOf u k from rfl, e] at a act ⊢
    revert a act
    cases faultState u k <;> cases condition u k <;> cases reactionOf u k <;> simp [nextFaultState]
  · rintro u ⟨c, hu, ht⟩
    have fs : ∀ j, faultState (refreshStall u) j = faultState u j := fun j => by rw [faultState, refreshStall_flt]; rfl
    have rs : ∀ j, reactionOf (refreshStall u) j = reactionOf u j := reactionOf_congr (refreshStall_cfg u)
    refine ⟨(refreshStall_cfg u).trans c, fun j hj => ?_, fun a => ht ?_⟩
    · simpa only [isActive, fs] using hu j (condition_refreshStall hj)
    · simpa only [kindTrips, fs, rs] using a
  · rintro u v c k' - hc ⟨d, hu, ht⟩
    have fs : ∀ j, faultState v j = faultState u j := fun j => by rw [faultState, k']; rfl
    refine ⟨c.trans d, fun j hj => ?_, fun a => ht ?_⟩
    · simpa only [isActive, fs] using hu j (by rw [← hc]; exact hj)
    · simpa only [kindTrips, fs, reactionOf_congr c] using a

theorem Quiet.powerUpTrip {s t : State} (h : Quiet s t) : t.w.flt.powerUpTrip = s.w.flt.powerUpTrip :=
  calmWinder_get (·.flt.powerUpTrip) (fun _ => rfl) h.keeps.2.1.2.2.1

/-! ## A winder that is not moving -/

/-- What settling makes of a winder outside the moving states. A leg starts only where the lockout is off, from a
list that was not empty. -/
inductive Idles (s : State) : State → Prop where
  | refl : Idles s s
  | faults {t} : Idles s t → Idles s (updateFaults t)
  | stall {t} : Idles s t → Idles s (refreshStall t)
  | report {t} : Idles s t → Idles s (queueReport t)
  | trip {t} (b : Bool) (c : TripCause) : Idles s t → Idles s (noteTrip b c t)
  | tripped {t} : Idles s t → Idles s (restIn .tripped t)
  | inspect {t} : t.w.panel.selector = .inspection → Idles s t → Idles s (restIn .inspection t)
  | noted {t} : t.w.seq.wind = .inspection → Idles s t → Idles s (noteInspection t)
  | parked {t} (n : Nat) : t.w.seq.custodian = some n → Idles s t → Idles s (noteParked n t)
  | pair {t} (c l : Option Nat) : c = none ∨ c = t.w.seq.custodian → Idles s t → Idles s (setPair c l t)
  | remove {t} (c : Call) : Idles s t → Idles s (removeEntry c t)
  | mark {t} (c : Call) : Idles s t → Idles s (markEntry c t)
  | answer {t} (a : AnswerFrame) : Idles s t → Idles s (queueAnswer a t)
  | classed {t} (k : LoadClass) : Idles s t → Idles s (noteClass k t)
  | prepare {t u} (g : Leg) (calls : List Call) : Idles s u → u.w.seq.wind = .idle → u.w.seq.lockout = false →
      (∃ c ∈ u.w.seq.list, c.mark = none) → t.w.seq.wind = .idle → t.w.seq.lockout = false →
      g.kind ≠ .resume → Idles s t → Idles s (prepare g calls t)

theorem Idles.dropEntry {s t : State} (h : Idles s t) (c : Call) : Idles s (dropEntry c t) := by
  unfold Machine.dropEntry
  split
  · exact h
  · split
    · exact .answer _ (.remove c h)
    · exact .mark c h

theorem Idles.dropAll {s : State} (l : List Call) : ∀ {t : State}, Idles s t →
    Idles s (l.foldl (fun t c => Machine.dropEntry c t) t) := by
  induction l with
  | nil => exact fun h => h
  | cons c cs ih => exact fun h => ih (h.dropEntry c)

theorem Idles.purgeDispatch {s t : State} (h : Idles s t) : Idles s (purgeDispatch t) := h.dropAll _

theorem Idles.changePair {s t : State} (h : Idles s t) (c l : Option Nat)
    (hc : c = none ∨ c = t.w.seq.custodian) : Idles s (changePair c l t) := by
  unfold Machine.changePair
  split
  · exact h
  · exact Idles.purgeDispatch (.pair c l hc h)

theorem seq_dropEntry (c : Call) (s : State) :
    (dropEntry c s).w.seq.wind = s.w.seq.wind ∧ (dropEntry c s).w.seq.lockout = s.w.seq.lockout := by
  unfold dropEntry
  split
  · exact ⟨rfl, rfl⟩
  · split
    · unfold queueAnswer
      split <;> exact ⟨rfl, rfl⟩
    · exact ⟨rfl, rfl⟩

theorem seq_dropAll (l : List Call) : ∀ s : State,
    (l.foldl (fun t c => dropEntry c t) s).w.seq.wind = s.w.seq.wind
      ∧ (l.foldl (fun t c => dropEntry c t) s).w.seq.lockout = s.w.seq.lockout := by
  induction l with
  | nil => exact fun _ => ⟨rfl, rfl⟩
  | cons c cs ih =>
    intro s
    have a := ih (dropEntry c s)
    have b := seq_dropEntry c s
    exact ⟨a.1.trans b.1, a.2.trans b.2⟩

theorem seq_changePair (c l : Option Nat) (s : State) :
    (changePair c l s).w.seq.wind = s.w.seq.wind ∧ (changePair c l s).w.seq.lockout = s.w.seq.lockout := by
  unfold changePair
  split
  · exact ⟨rfl, rfl⟩
  · exact seq_dropAll _ _

theorem Idles.startCall {s t : State} (h : Idles s t) (w : t.w.seq.wind = .idle) (l : t.w.seq.lockout = false)
    {c : Call} (hc : c ∈ t.w.seq.list) (hm : c.mark = none) (d x : Int) : Idles s (startCall c d x t) := by
  have h1 : Idles s (Machine.changePair none none (removeEntry c t)) := (Idles.remove c h).changePair _ _ (.inl rfl)
  have e := seq_changePair none none (removeEntry c t)
  have f := seq_dropAll
    (((noteClass (classAtStart c (Machine.changePair none none (removeEntry c t)).w.tr.cls.a)
      (Machine.changePair none none (removeEntry c t))).w.seq.list.filter
      fun e => e.kind == .dispatch && !isEntitled (noteClass (classAtStart c
        (Machine.changePair none none (removeEntry c t)).w.tr.cls.a)
        (Machine.changePair none none (removeEntry c t))) e.origin))
    (noteClass (classAtStart c (Machine.changePair none none (removeEntry c t)).w.tr.cls.a)
      (Machine.changePair none none (removeEntry c t)))
  exact .prepare (u := t) _ _ h w l ⟨c, hc, hm⟩ (f.1.trans (e.1.trans w)) (f.2.trans (e.2.trans l)) (by simp)
    (Idles.purgeDispatch (.classed _ h1))

/-- A candidate carries no dropping mark. -/
theorem mark_serviceOrder {s : State} {c : Call} (h : serviceOrder s = some c) : c.mark = none := by
  have live : ∀ {p : Call → Bool} {d : Call}, (liveCalls s).find? p = some d → d.mark = none := fun h => by
    simpa using (List.mem_filter.mp (List.mem_of_find?_eq_some h)).2
  simp only [serviceOrder, Option.or_eq_some_iff] at h
  rcases h with h | ⟨-, h⟩
  · exact live h
  · split at h
    · cases h
    · rcases Option.or_eq_some_iff.mp h with h | ⟨-, h⟩
      · exact live h
      · exact live h

/-- A call of a candidate pair carries no dropping mark. -/
theorem mark_readyPair {s : State} {a b : Call} (h : readyPair s = some (a, b)) : a.mark = none := by
  obtain ⟨x, hx, hf⟩ := List.exists_of_findSome?_eq_some h
  obtain ⟨y, hy, he⟩ := Option.map_eq_some_iff.mp hf
  cases he
  simpa using (List.mem_filter.mp (List.mem_filter.mp hx).1).2

theorem Idles.followService {s : State} (b : Bool) (n : Nat) : ∀ {t : State}, Idles s t →
    t.w.seq.wind = .idle → Idles s (followService b n t) := by
  induction n generalizing b with
  | zero => exact fun h _ => h
  | succ n ih =>
    intro t h w
    unfold Machine.followService
    split
    · exact h
    · next c hc =>
      split
      · exact ih b (h.dropEntry c) ((seq_dropEntry c t).1.trans w)
      · split
        · exact h
        · exact ih true (.remove c h) w
        · next hs =>
          have l : t.w.seq.lockout = false := by
            unfold candidateStep at hs
            split at hs
            · split at hs
              · split at hs
                · cases hs
                · split at hs
                  · cases hs
                  · simp_all
              · cases hs
            · cases hs
          exact h.startCall w l (mem_serviceOrder hc) (mark_serviceOrder hc) _ _

theorem Idles.idleStage {s t : State} (h : Idles s t) (b : Bool) : Idles s (idleStage b t) := by
  unfold Machine.idleStage
  split
  · next w =>
    split
    · unfold followPair
      split
      · next a b hp =>
        split
        · next hc =>
          have l : t.w.seq.lockout = false := by
            simp only [Bool.and_eq_true, Bool.not_eq_true'] at hc
            exact hc.2
          exact .prepare (u := t) _ _ h w l ⟨a, (mem_readyPair hp).1, mark_readyPair hp⟩ w l (by simp)
            (.remove b (.remove a h))
        · exact h
      · exact h
    · exact h.followService _ _ w
  · exact h

theorem Idles.noteMotion {s t : State} (h : Idles s t) (s0 : State) : Idles s (noteMotion s0 t) := by
  unfold Machine.noteMotion
  split
  · exact .report h
  · exact h

theorem wind_noteMotion (s0 s : State) : (noteMotion s0 s).w.seq.wind = s.w.seq.wind := by
  unfold noteMotion queueReport putReport
  split
  · split <;> rfl
  · rfl

theorem wind_restIn (w : WindState) (s : State) : (restIn w s).w.seq.wind = w := by
  unfold restIn withdrawPermit
  split
  · split <;> rfl
  · rfl

theorem Idles.refreshFaults {s t : State} (h : Idles s t) : Idles s (refreshFaults t) := .faults (.stall h)

/-- The wind states that are neither moving nor INSPECTION. -/
def atRest : WindState → Bool
  | .starting => true
  | .tripped => true
  | .idle => true
  | .suspended => true
  | .faulted => true
  | _ => false

theorem applyTrip_rest {s t : State} (h : Idles s t) (r : atRest t.w.seq.wind = true) :
    Idles s (applyTrip t) ∧ atRest (applyTrip t).w.seq.wind = true
      ∧ ((applyTrip t).w.seq.wind = .tripped ∨ (applyTrip t).w.seq.wind = t.w.seq.wind) := by
  have h1 : Idles s (noteTrip (tripLevel t) (tripCauseAfter t) t) := .trip _ _ h
  unfold applyTrip
  split
  · refine ⟨.tripped ?_, by simp only [enterTripped, wind_restIn]; rfl, .inl (by simp only [enterTripped, wind_restIn])⟩
    change Idles s (tripCapture (noteTrip (tripLevel t) (tripCauseAfter t) t))
    unfold tripCapture
    have hw : (noteTrip (tripLevel t) (tripCauseAfter t) t).w.seq.wind = t.w.seq.wind := rfl
    rw [hw]
    cases e : t.w.seq.wind <;> rw [e] at r <;> first | exact absurd r (by decide) | skip
    · exact h1
    · exact h1
    · dsimp only
      unfold captureParked
      split
      · exact h1
      · next n hn => exact Idles.changePair (t := noteParked n _) (.parked n hn h1) _ _ (.inl rfl)
    · exact h1
    · exact h1
  · exact ⟨h1, r, .inr rfl⟩

theorem noting_off {stage : State → State} {s : State} (h : stage s = s) :
    noting stage s = s := by
  rw [noting, h]
  unfold noteMotion motionDue
  split
  · next h => simp at h
  · rfl

theorem surveyStage_rest {s : State} (r : s.w.seq.wind ≠ .survey) : surveyStage s = s := by
  unfold surveyStage surveying
  split
  · next h => simp only [Bool.and_eq_true, beq_iff_eq] at h; exact absurd h.1.1 r
  · rfl

theorem prepareStage_rest {s : State} (r : s.w.seq.wind ≠ .preparing) : prepareStage s = s := if_neg r

theorem runStage_rest {s : State} (r : s.w.seq.wind ≠ .running) : runStage s = s := if_neg fun h => r h.1

theorem inspectStage_rest {s : State} (r : s.w.seq.wind ≠ .inspection) : inspectStage s = s := if_neg r

/-- Settling of a winder that is not moving: what it is made of, and the wind states it may end in. -/
theorem settle_idles (s0 s : State) (r : atRest s.w.seq.wind = true) :
    Idles s (settleWinder s0 s)
      ∧ ((settleWinder s0 s).w.seq.wind = s.w.seq.wind ∨ (settleWinder s0 s).w.seq.wind = .tripped
          ∨ (settleWinder s0 s).w.seq.wind = .inspection
          ∨ (s.w.seq.wind = .idle ∧ (settleWinder s0 s).w.seq.wind = .preparing)) := by
  have h1 : Idles s (refreshFaults (noteMotion s0 s)) := (Idles.refl.noteMotion s0).refreshFaults
  have w1 : (refreshFaults (noteMotion s0 s)).w.seq.wind = s.w.seq.wind := by
    rw [refreshFaults_seq, wind_noteMotion]
  unfold settleWinder
  dsimp only
  generalize refreshFaults (noteMotion s0 s) = u at h1 w1
  obtain ⟨h2, r2, w2⟩ := applyTrip_rest h1 (by rw [w1]; exact r)
  have h3 : Idles s (noting applyTrip u) := h2.noteMotion u
  have r3 : atRest (noting applyTrip u).w.seq.wind = true := by rw [noting, wind_noteMotion]; exact r2
  have w3 : (noting applyTrip u).w.seq.wind = .tripped ∨ (noting applyTrip u).w.seq.wind = s.w.seq.wind := by
    rw [noting, wind_noteMotion, ← w1]
    exact w2
  have e3 : settleStages u = noting inspectEntry (noting applyTrip u) := by
    have ne : ∀ x, atRest x = false → (noting applyTrip u).w.seq.wind ≠ x := fun x hx e => by
      rw [e, hx] at r3; cases r3
    unfold settleStages
    rw [noting_off (surveyStage_rest (ne _ rfl)), noting_off (prepareStage_rest (ne _ rfl)),
      noting_off (runStage_rest (ne _ rfl)), noting_off (inspectStage_rest (ne _ rfl))]
  rw [e3]
  generalize noting applyTrip u = v at h3 r3 w3
  have h4 : Idles s (noting inspectEntry v)
      ∧ ((noting inspectEntry v).w.seq.wind = .inspection ∨ (noting inspectEntry v).w.seq.wind = v.w.seq.wind) := by
    rw [noting, wind_noteMotion]
    unfold inspectEntry
    split
    · next hi =>
      have hs : v.w.panel.selector = .inspection := by
        simp only [Bool.and_eq_true, beq_iff_eq] at hi
        exact hi.2
      have hp : Idles s (Machine.changePair none none v) := h3.changePair _ _ (.inl rfl)
      have sel : (Machine.changePair none none v).w.panel.selector = v.w.panel.selector := by
        have q := ((Quiet.refl (s := v)).changePair none none).keeps.2.1.2.2.1
        have q2 : (calmWinder (Machine.changePair none none v).w).panel.selector
            = (calmWinder v.w).panel.selector := congrArg (fun w : Winder => w.panel.selector) q
        exact q2
      refine ⟨Idles.noteMotion (.noted ?_ (.inspect (sel.trans hs) hp)) v, .inl ?_⟩
      · exact wind_restIn _ _
      · exact wind_restIn _ _
    · exact ⟨h3.noteMotion v, .inr rfl⟩
  obtain ⟨h4, w4⟩ := h4
  generalize noting inspectEntry v = x at h4 w4
  have h5 : Idles s (noting (Machine.idleStage (candidateChanged s0 x)) x) := (h4.idleStage _).noteMotion x
  refine ⟨h5.refreshFaults, ?_⟩
  rw [refreshFaults_seq, noting, wind_noteMotion]
  have w5 : (Machine.idleStage (candidateChanged s0 x) x).w.seq.wind = x.w.seq.wind
      ∨ (x.w.seq.wind = .idle ∧ (Machine.idleStage (candidateChanged s0 x) x).w.seq.wind = .preparing) := by
    unfold Machine.idleStage
    split
    · next hw =>
      split
      · unfold followPair
        split
        · split
          · exact .inr ⟨hw, rfl⟩
          · exact .inl rfl
        · exact .inl rfl
      · have key : ∀ (b : Bool) (n : Nat) (t : State), t.w.seq.wind = .idle →
            (Machine.followService b n t).w.seq.wind = .idle ∨ (Machine.followService b n t).w.seq.wind = .preparing := by
          intro b n
          induction n generalizing b with
          | zero => exact fun t h => .inl h
          | succ n ih =>
            intro t h
            unfold Machine.followService
            split
            · exact .inl h
            · next c _ =>
              split
              · exact ih b _ ((seq_dropEntry c t).1.trans h)
              · split
                · exact .inl h
                · exact ih true _ h
                · exact .inr rfl
        rcases key (candidateChanged s0 x) (x.w.seq.list.length + 1) x hw with k | k
        · exact .inl (k.trans hw.symm)
        · exact .inr ⟨hw, k⟩
    · exact .inl rfl
  rcases w5 with w5 | ⟨hw, w5⟩
  · rw [w5]
    rcases w4 with w4 | w4
    · exact .inr (.inr (.inl w4))
    · rw [w4]
      rcases w3 with w3 | w3
      · exact .inr (.inl w3)
      · exact .inl w3
  · rcases w4 with w4 | w4
    · rw [w4] at hw; cases hw
    · rw [w4] at hw
      rcases w3 with w3 | w3
      · rw [w3] at hw; cases hw
      · exact .inr (.inr (.inr ⟨w3.symm.trans hw, w5⟩))

/-! ## TRIP at the end of a command -/

/-- Whether settling after the TRIP stage leaves a wind state as it is. -/
def isStuck : WindState → Bool
  | .starting => true
  | .tripped => true
  | .faulted => true
  | _ => false

theorem wind_noting (stage : State → State) (s : State) : (noting stage s).w.seq.wind = (stage s).w.seq.wind :=
  wind_noteMotion _ _

/-- From TRIPPED, STARTING or FAULTED, the stages after TRIP's change no wind state. -/
theorem settleStages_stuck {s : State} (h : isStuck (applyTrip s).w.seq.wind = true) :
    (settleStages s).w.seq.wind = (applyTrip s).w.seq.wind := by
  have ne : ∀ x, isStuck x = false → (noting applyTrip s).w.seq.wind ≠ x := fun x hx e => by
    rw [wind_noting] at e
    rw [e, hx] at h
    cases h
  unfold settleStages
  rw [noting_off (surveyStage_rest (ne _ rfl)), noting_off (prepareStage_rest (ne _ rfl)),
    noting_off (runStage_rest (ne _ rfl)), noting_off (inspectStage_rest (ne _ rfl)), wind_noting]
  unfold inspectEntry
  rw [if_neg, wind_noting]
  simp only [Bool.and_eq_true, Bool.or_eq_true, beq_iff_eq, not_and]
  rintro (e | e)
  · exact absurd e (ne _ rfl)
  · exact absurd e (ne _ rfl)

theorem settle_stuck {s0 s : State} (h : isStuck (applyTrip (refreshFaults (noteMotion s0 s))).w.seq.wind = true) :
    (settleWinder s0 s).w.seq.wind = (applyTrip (refreshFaults (noteMotion s0 s))).w.seq.wind := by
  have e := settleStages_stuck h
  unfold settleWinder
  simp only
  rw [refreshFaults_seq, wind_noting, idleStage, if_neg, e]
  rw [e]
  intro i
  rw [i] at h
  cases h

theorem wind_applyTrip (s : State) :
    (applyTrip s).w.seq.wind = if tripLevel s && tripsFrom s.w.seq.wind then .tripped else s.w.seq.wind := by
  unfold applyTrip
  split
  · simp only [enterTripped, wind_restIn]
  · rfl

/-- TRIP asserted once the conditions stand as the command left them takes a winder to TRIPPED (R119). -/
theorem settle_tripped {s0 s : State} (t : tripLevel (refreshFaults (noteMotion s0 s)) = true)
    (f : tripsFrom s.w.seq.wind = true) : (settleWinder s0 s).w.seq.wind = .tripped := by
  have w : (applyTrip (refreshFaults (noteMotion s0 s))).w.seq.wind = .tripped := by
    rw [wind_applyTrip, refreshFaults_seq, wind_noteMotion, t, f]
    rfl
  rw [settle_stuck (by rw [w]; rfl), w]

/-- TRIP asserted after settling: the winder is in TRIPPED, or in STARTING or FAULTED, which TRIP does not leave. -/
theorem settle_trip {s0 s : State} (t : tripLevel (settleWinder s0 s) = true) :
    isStuck (settleWinder s0 s).w.seq.wind = true := by
  cases hf : isStuck (settleWinder s0 s).w.seq.wind with
  | true => rfl
  | false =>
    have q : Quiet (refreshFaults (noteMotion s0 s)) (settleWinder s0 s) :=
      (Quiet.noting (Machine.idleStage _) (fun h => h.idleStage _) Quiet.refl.settleStages).refreshFaults
    have u : tripLevel (refreshFaults (noteMotion s0 s)) = true := by
      simp only [tripLevel, Bool.or_eq_true, beq_iff_eq, List.any_eq_true] at t ⊢
      rcases t with (t | t) | ⟨k, m, t⟩
      · exact .inl (.inl (by rw [← q.powerUpTrip, t]))
      · rw [t] at hf; cases hf
      · exact .inr ⟨k, m, q.trip_mono (updateFaults_settled _).shown k t⟩
    have key : isStuck (applyTrip (refreshFaults (noteMotion s0 s))).w.seq.wind = true := by
      rw [wind_applyTrip, u]
      cases (refreshFaults (noteMotion s0 s)).w.seq.wind <;> rfl
    rw [settle_stuck key, key] at hf
    cases hf

end Sys2Proof.Machine
end

