-- ==== Sys2Proof/Laws/State.lean ====
section
/-! SUPPORT. What each named update of the state leaves alone, and what it writes: lemmas true by unfolding, so that no
later proof unfolds a record update. -/

namespace Sys2Proof.Machine

open Sys2Proof

/-! ## What an update leaves alone -/

@[simp] theorem setPeer_frame (s : State) (p : Peer) :
    (setPeer p s).pending = s.pending ∧ (setPeer p s).clock = s.clock ∧ (setPeer p s).step = s.step
      ∧ (setPeer p s).loader = s.loader ∧ (setPeer p s).cfg = s.cfg ∧ (setPeer p s).listen = s.listen
      ∧ (setPeer p s).line = s.line ∧ (setPeer p s).w = s.w ∧ (setPeer p s).l = s.l ∧ (setPeer p s).k = s.k
      ∧ (setPeer p s).pins = s.pins :=
  ⟨rfl, rfl, rfl, rfl, rfl, rfl, rfl, rfl, rfl, rfl, rfl⟩

@[simp] theorem hear_frame (s : State) (n : Nat) :
    (hear n s).pending = s.pending ∧ (hear n s).clock = s.clock ∧ (hear n s).step = s.step
      ∧ (hear n s).loader = s.loader ∧ (hear n s).cfg = s.cfg ∧ (hear n s).listen = s.listen
      ∧ (hear n s).line = s.line ∧ (hear n s).w = s.w ∧ (hear n s).l = s.l ∧ (hear n s).k = s.k
      ∧ (hear n s).pins = s.pins :=
  ⟨rfl, rfl, rfl, rfl, rfl, rfl, rfl, rfl, rfl, rfl, rfl⟩

@[simp] theorem forgetLearned_frame (s : State) (n : Nat) :
    (forgetLearned n s).pending = s.pending ∧ (forgetLearned n s).clock = s.clock ∧ (forgetLearned n s).step = s.step
      ∧ (forgetLearned n s).loader = s.loader ∧ (forgetLearned n s).cfg = s.cfg
      ∧ (forgetLearned n s).listen = s.listen ∧ (forgetLearned n s).line = s.line
      ∧ (forgetLearned n s).peers = s.peers ∧ (forgetLearned n s).w.tr.n = s.w.tr.n
      ∧ (forgetLearned n s).w.tr.nSample = s.w.tr.nSample ∧ (forgetLearned n s).w.tr.origin = s.w.tr.origin
      ∧ (forgetLearned n s).w.tr.x = s.w.tr.x ∧ (forgetLearned n s).w.tr.v = s.w.tr.v
      ∧ (forgetLearned n s).w.tr.dir = s.w.tr.dir ∧ (forgetLearned n s).w.tr.cls = s.w.tr.cls
      ∧ (forgetLearned n s).w.tr.clsSample = s.w.tr.clsSample
      ∧ (forgetLearned n s).w.tr.k = s.w.tr.k ∧ (forgetLearned n s).w.tr.history = s.w.tr.history
      ∧ (forgetLearned n s).w.tr.validated = s.w.tr.validated ∧ (forgetLearned n s).w.tr.window = s.w.tr.window
      ∧ (forgetLearned n s).w.env = s.w.env ∧ (forgetLearned n s).w.seq = s.w.seq
      ∧ (forgetLearned n s).w.flt = s.w.flt ∧ (forgetLearned n s).w.panel = s.w.panel
      ∧ (forgetLearned n s).w.drive = s.w.drive ∧ (forgetLearned n s).w.sampleTimer = s.w.sampleTimer
      ∧ (forgetLearned n s).l = s.l ∧ (forgetLearned n s).k = s.k ∧ (forgetLearned n s).pins = s.pins :=
  ⟨rfl, rfl, rfl, rfl, rfl, rfl, rfl, rfl, rfl, rfl, rfl, rfl, rfl, rfl, rfl, rfl, rfl, rfl, rfl, rfl, rfl, rfl, rfl,
    rfl, rfl, rfl, rfl, rfl, rfl⟩

@[simp] theorem testConflicts_frame (s : State) :
    (testConflicts s).pending = s.pending ∧ (testConflicts s).clock = s.clock ∧ (testConflicts s).step = s.step
      ∧ (testConflicts s).loader = s.loader ∧ (testConflicts s).cfg = s.cfg ∧ (testConflicts s).listen = s.listen
      ∧ (testConflicts s).line = s.line ∧ (testConflicts s).w = s.w ∧ (testConflicts s).l = s.l
      ∧ (testConflicts s).k = s.k ∧ (testConflicts s).pins = s.pins :=
  ⟨rfl, rfl, rfl, rfl, rfl, rfl, rfl, rfl, rfl, rfl, rfl⟩

@[simp] theorem raiseEvent_frame (s : State) (k : FaultKind) :
    (raiseEvent k s).pending = s.pending ∧ (raiseEvent k s).clock = s.clock ∧ (raiseEvent k s).step = s.step
      ∧ (raiseEvent k s).loader = s.loader ∧ (raiseEvent k s).cfg = s.cfg ∧ (raiseEvent k s).listen = s.listen
      ∧ (raiseEvent k s).line = s.line ∧ (raiseEvent k s).peers = s.peers ∧ (raiseEvent k s).w.tr = s.w.tr
      ∧ (raiseEvent k s).w.env = s.w.env ∧ (raiseEvent k s).w.seq = s.w.seq
      ∧ (raiseEvent k s).w.flt.kinds = s.w.flt.kinds ∧ (raiseEvent k s).w.flt.atSample = s.w.flt.atSample
      ∧ (raiseEvent k s).w.flt.overwind = s.w.flt.overwind ∧ (raiseEvent k s).w.flt.overrun = s.w.flt.overrun
      ∧ (raiseEvent k s).w.flt.duplicate = s.w.flt.duplicate
      ∧ (raiseEvent k s).w.flt.powerUpTrip = s.w.flt.powerUpTrip ∧ (raiseEvent k s).w.flt.alarmSet = s.w.flt.alarmSet
      ∧ (raiseEvent k s).w.flt.tripCause = s.w.flt.tripCause ∧ (raiseEvent k s).w.flt.trip = s.w.flt.trip
      ∧ (raiseEvent k s).w.panel = s.w.panel ∧ (raiseEvent k s).w.drive = s.w.drive
      ∧ (raiseEvent k s).w.sampleTimer = s.w.sampleTimer ∧ (raiseEvent k s).l = s.l ∧ (raiseEvent k s).k = s.k
      ∧ (raiseEvent k s).pins = s.pins :=
  ⟨rfl, rfl, rfl, rfl, rfl, rfl, rfl, rfl, rfl, rfl, rfl, rfl, rfl, rfl, rfl, rfl, rfl, rfl, rfl, rfl, rfl, rfl, rfl,
    rfl, rfl, rfl⟩

@[simp] theorem updateFaults_frame (s : State) :
    (updateFaults s).pending = s.pending ∧ (updateFaults s).clock = s.clock ∧ (updateFaults s).step = s.step
      ∧ (updateFaults s).loader = s.loader ∧ (updateFaults s).cfg = s.cfg ∧ (updateFaults s).listen = s.listen
      ∧ (updateFaults s).line = s.line ∧ (updateFaults s).peers = s.peers ∧ (updateFaults s).w.tr = s.w.tr
      ∧ (updateFaults s).w.env = s.w.env ∧ (updateFaults s).w.seq = s.w.seq
      ∧ (updateFaults s).w.flt.raised = s.w.flt.raised ∧ (updateFaults s).w.flt.atSample = s.w.flt.atSample
      ∧ (updateFaults s).w.flt.overwind = s.w.flt.overwind ∧ (updateFaults s).w.flt.overrun = s.w.flt.overrun
      ∧ (updateFaults s).w.flt.duplicate = s.w.flt.duplicate
      ∧ (updateFaults s).w.flt.powerUpTrip = s.w.flt.powerUpTrip ∧ (updateFaults s).w.flt.alarmSet = s.w.flt.alarmSet
      ∧ (updateFaults s).w.flt.tripCause = s.w.flt.tripCause ∧ (updateFaults s).w.flt.trip = s.w.flt.trip
      ∧ (updateFaults s).w.panel = s.w.panel ∧ (updateFaults s).w.drive = s.w.drive
      ∧ (updateFaults s).w.sampleTimer = s.w.sampleTimer ∧ (updateFaults s).l = s.l ∧ (updateFaults s).k = s.k
      ∧ (updateFaults s).pins = s.pins :=
  ⟨rfl, rfl, rfl, rfl, rfl, rfl, rfl, rfl, rfl, rfl, rfl, rfl, rfl, rfl, rfl, rfl, rfl, rfl, rfl, rfl, rfl, rfl, rfl,
    rfl, rfl, rfl⟩

@[simp] theorem computeTrack_frame (s : State) :
    (computeTrack s).pending = s.pending ∧ (computeTrack s).clock = s.clock ∧ (computeTrack s).step = s.step
      ∧ (computeTrack s).loader = s.loader ∧ (computeTrack s).cfg = s.cfg ∧ (computeTrack s).listen = s.listen
      ∧ (computeTrack s).line = s.line ∧ (computeTrack s).peers = s.peers ∧ (computeTrack s).w.tr.n = s.w.tr.n
      ∧ (computeTrack s).w.tr.origin = s.w.tr.origin ∧ (computeTrack s).w.tr.cls = s.w.tr.cls
      ∧ (computeTrack s).w.tr.k = s.w.tr.k ∧ (computeTrack s).w.tr.learned = s.w.tr.learned
      ∧ (computeTrack s).w.tr.validated = s.w.tr.validated ∧ (computeTrack s).w.env = s.w.env
      ∧ (computeTrack s).w.seq = s.w.seq ∧ (computeTrack s).w.flt = s.w.flt ∧ (computeTrack s).w.panel = s.w.panel
      ∧ (computeTrack s).w.drive = s.w.drive ∧ (computeTrack s).w.sampleTimer = s.w.sampleTimer
      ∧ (computeTrack s).l = s.l ∧ (computeTrack s).k = s.k ∧ (computeTrack s).pins = s.pins :=
  ⟨rfl, rfl, rfl, rfl, rfl, rfl, rfl, rfl, rfl, rfl, rfl, rfl, rfl, rfl, rfl, rfl, rfl, rfl, rfl, rfl, rfl, rfl, rfl⟩

@[simp] theorem checkEncoder_frame (s : State) :
    (checkEncoder s).pending = s.pending ∧ (checkEncoder s).clock = s.clock ∧ (checkEncoder s).step = s.step
      ∧ (checkEncoder s).loader = s.loader ∧ (checkEncoder s).cfg = s.cfg ∧ (checkEncoder s).listen = s.listen
      ∧ (checkEncoder s).line = s.line ∧ (checkEncoder s).peers = s.peers ∧ (checkEncoder s).w.tr.n = s.w.tr.n
      ∧ (checkEncoder s).w.tr.nSample = s.w.tr.nSample ∧ (checkEncoder s).w.tr.origin = s.w.tr.origin
      ∧ (checkEncoder s).w.tr.x = s.w.tr.x ∧ (checkEncoder s).w.tr.v = s.w.tr.v
      ∧ (checkEncoder s).w.tr.dir = s.w.tr.dir ∧ (checkEncoder s).w.tr.cls = s.w.tr.cls
      ∧ (checkEncoder s).w.tr.clsSample = s.w.tr.clsSample
      ∧ (checkEncoder s).w.tr.k = s.w.tr.k ∧ (checkEncoder s).w.tr.history = s.w.tr.history
      ∧ (checkEncoder s).w.tr.learned = s.w.tr.learned ∧ (checkEncoder s).w.tr.window = s.w.tr.window
      ∧ (checkEncoder s).w.env = s.w.env ∧ (checkEncoder s).w.seq = s.w.seq ∧ (checkEncoder s).w.flt = s.w.flt
      ∧ (checkEncoder s).w.panel = s.w.panel ∧ (checkEncoder s).w.drive = s.w.drive
      ∧ (checkEncoder s).w.sampleTimer = s.w.sampleTimer ∧ (checkEncoder s).l = s.l ∧ (checkEncoder s).k = s.k
      ∧ (checkEncoder s).pins = s.pins :=
  ⟨rfl, rfl, rfl, rfl, rfl, rfl, rfl, rfl, rfl, rfl, rfl, rfl, rfl, rfl, rfl, rfl, rfl, rfl, rfl, rfl, rfl, rfl, rfl,
    rfl, rfl, rfl, rfl, rfl, rfl⟩

@[simp] theorem restartStall_frame (s : State) :
    (restartStall s).pending = s.pending ∧ (restartStall s).clock = s.clock ∧ (restartStall s).step = s.step
      ∧ (restartStall s).loader = s.loader ∧ (restartStall s).cfg = s.cfg ∧ (restartStall s).listen = s.listen
      ∧ (restartStall s).line = s.line ∧ (restartStall s).peers = s.peers ∧ (restartStall s).w.tr.n = s.w.tr.n
      ∧ (restartStall s).w.tr.nSample = s.w.tr.nSample ∧ (restartStall s).w.tr.origin = s.w.tr.origin
      ∧ (restartStall s).w.tr.x = s.w.tr.x ∧ (restartStall s).w.tr.v = s.w.tr.v
      ∧ (restartStall s).w.tr.dir = s.w.tr.dir ∧ (restartStall s).w.tr.cls = s.w.tr.cls
      ∧ (restartStall s).w.tr.clsSample = s.w.tr.clsSample
      ∧ (restartStall s).w.tr.k = s.w.tr.k ∧ (restartStall s).w.tr.history = s.w.tr.history
      ∧ (restartStall s).w.tr.learned = s.w.tr.learned ∧ (restartStall s).w.tr.validated = s.w.tr.validated
      ∧ (restartStall s).w.tr.window = s.w.tr.window ∧ (restartStall s).w.env = s.w.env
      ∧ (restartStall s).w.seq = s.w.seq ∧ (restartStall s).w.flt = s.w.flt ∧ (restartStall s).w.panel = s.w.panel
      ∧ (restartStall s).w.drive = s.w.drive ∧ (restartStall s).w.sampleTimer = s.w.sampleTimer
      ∧ (restartStall s).l = s.l ∧ (restartStall s).k = s.k ∧ (restartStall s).pins = s.pins :=
  ⟨rfl, rfl, rfl, rfl, rfl, rfl, rfl, rfl, rfl, rfl, rfl, rfl, rfl, rfl, rfl, rfl, rfl, rfl, rfl, rfl, rfl, rfl, rfl,
    rfl, rfl, rfl, rfl, rfl, rfl, rfl⟩

@[simp] theorem setExpectations_frame (s : State) :
    (setExpectations s).pending = s.pending ∧ (setExpectations s).clock = s.clock ∧ (setExpectations s).step = s.step
      ∧ (setExpectations s).loader = s.loader ∧ (setExpectations s).cfg = s.cfg
      ∧ (setExpectations s).listen = s.listen ∧ (setExpectations s).line = s.line
      ∧ (setExpectations s).peers = s.peers ∧ (setExpectations s).w.tr.n = s.w.tr.n
      ∧ (setExpectations s).w.tr.nSample = s.w.tr.nSample ∧ (setExpectations s).w.tr.origin = s.w.tr.origin
      ∧ (setExpectations s).w.tr.x = s.w.tr.x ∧ (setExpectations s).w.tr.v = s.w.tr.v
      ∧ (setExpectations s).w.tr.dir = s.w.tr.dir ∧ (setExpectations s).w.tr.cls = s.w.tr.cls
      ∧ (setExpectations s).w.tr.clsSample = s.w.tr.clsSample
      ∧ (setExpectations s).w.tr.k = s.w.tr.k ∧ (setExpectations s).w.tr.history = s.w.tr.history
      ∧ (setExpectations s).w.tr.learned = s.w.tr.learned ∧ (setExpectations s).w.tr.validated = s.w.tr.validated
      ∧ (setExpectations s).w.tr.window = s.w.tr.window ∧ (setExpectations s).w.env = s.w.env
      ∧ (setExpectations s).w.seq = s.w.seq ∧ (setExpectations s).w.flt = s.w.flt
      ∧ (setExpectations s).w.panel = s.w.panel ∧ (setExpectations s).w.drive = s.w.drive
      ∧ (setExpectations s).w.sampleTimer = s.w.sampleTimer ∧ (setExpectations s).l = s.l
      ∧ (setExpectations s).k = s.k ∧ (setExpectations s).pins = s.pins :=
  ⟨rfl, rfl, rfl, rfl, rfl, rfl, rfl, rfl, rfl, rfl, rfl, rfl, rfl, rfl, rfl, rfl, rfl, rfl, rfl, rfl, rfl, rfl, rfl,
    rfl, rfl, rfl, rfl, rfl, rfl, rfl⟩

@[simp] theorem learn_frame (s : State) (c : Conv) (e : Learned) :
    (learn c e s).pending = s.pending ∧ (learn c e s).clock = s.clock ∧ (learn c e s).step = s.step
      ∧ (learn c e s).loader = s.loader ∧ (learn c e s).cfg = s.cfg ∧ (learn c e s).listen = s.listen
      ∧ (learn c e s).line = s.line ∧ (learn c e s).peers = s.peers ∧ (learn c e s).w.tr.n = s.w.tr.n
      ∧ (learn c e s).w.tr.nSample = s.w.tr.nSample ∧ (learn c e s).w.tr.origin = s.w.tr.origin
      ∧ (learn c e s).w.tr.x = s.w.tr.x ∧ (learn c e s).w.tr.v = s.w.tr.v ∧ (learn c e s).w.tr.dir = s.w.tr.dir
      ∧ (learn c e s).w.tr.cls = s.w.tr.cls
      ∧ (learn c e s).w.tr.clsSample = s.w.tr.clsSample ∧ (learn c e s).w.tr.k = s.w.tr.k
      ∧ (learn c e s).w.tr.history = s.w.tr.history ∧ (learn c e s).w.tr.validated = s.w.tr.validated
      ∧ (learn c e s).w.tr.window = s.w.tr.window ∧ (learn c e s).w.env = s.w.env ∧ (learn c e s).w.seq = s.w.seq
      ∧ (learn c e s).w.flt = s.w.flt ∧ (learn c e s).w.panel = s.w.panel ∧ (learn c e s).w.drive = s.w.drive
      ∧ (learn c e s).w.sampleTimer = s.w.sampleTimer ∧ (learn c e s).l = s.l ∧ (learn c e s).k = s.k
      ∧ (learn c e s).pins = s.pins :=
  ⟨rfl, rfl, rfl, rfl, rfl, rfl, rfl, rfl, rfl, rfl, rfl, rfl, rfl, rfl, rfl, rfl, rfl, rfl, rfl, rfl, rfl, rfl, rfl,
    rfl, rfl, rfl, rfl, rfl, rfl⟩

@[simp] theorem emptyLearned_frame (s : State) :
    (emptyLearned s).pending = s.pending ∧ (emptyLearned s).clock = s.clock ∧ (emptyLearned s).step = s.step
      ∧ (emptyLearned s).loader = s.loader ∧ (emptyLearned s).cfg = s.cfg ∧ (emptyLearned s).listen = s.listen
      ∧ (emptyLearned s).line = s.line ∧ (emptyLearned s).peers = s.peers ∧ (emptyLearned s).w.tr.n = s.w.tr.n
      ∧ (emptyLearned s).w.tr.nSample = s.w.tr.nSample ∧ (emptyLearned s).w.tr.origin = s.w.tr.origin
      ∧ (emptyLearned s).w.tr.x = s.w.tr.x ∧ (emptyLearned s).w.tr.v = s.w.tr.v
      ∧ (emptyLearned s).w.tr.dir = s.w.tr.dir ∧ (emptyLearned s).w.tr.cls = s.w.tr.cls
      ∧ (emptyLearned s).w.tr.clsSample = s.w.tr.clsSample
      ∧ (emptyLearned s).w.tr.k = s.w.tr.k ∧ (emptyLearned s).w.tr.history = s.w.tr.history
      ∧ (emptyLearned s).w.tr.validated = s.w.tr.validated ∧ (emptyLearned s).w.tr.window = s.w.tr.window
      ∧ (emptyLearned s).w.env = s.w.env ∧ (emptyLearned s).w.seq = s.w.seq ∧ (emptyLearned s).w.flt = s.w.flt
      ∧ (emptyLearned s).w.panel = s.w.panel ∧ (emptyLearned s).w.drive = s.w.drive
      ∧ (emptyLearned s).w.sampleTimer = s.w.sampleTimer ∧ (emptyLearned s).l = s.l ∧ (emptyLearned s).k = s.k
      ∧ (emptyLearned s).pins = s.pins :=
  ⟨rfl, rfl, rfl, rfl, rfl, rfl, rfl, rfl, rfl, rfl, rfl, rfl, rfl, rfl, rfl, rfl, rfl, rfl, rfl, rfl, rfl, rfl, rfl,
    rfl, rfl, rfl, rfl, rfl, rfl⟩

@[simp] theorem latchAt_frame (s : State) :
    (latchAt s).pending = s.pending ∧ (latchAt s).clock = s.clock ∧ (latchAt s).step = s.step
      ∧ (latchAt s).loader = s.loader ∧ (latchAt s).cfg = s.cfg ∧ (latchAt s).listen = s.listen
      ∧ (latchAt s).line = s.line ∧ (latchAt s).peers = s.peers ∧ (latchAt s).w.tr = s.w.tr
      ∧ (latchAt s).w.env.ceiling = s.w.env.ceiling ∧ (latchAt s).w.env.zones = s.w.env.zones
      ∧ (latchAt s).w.env.applied = s.w.env.applied
      ∧ (latchAt s).w.env.completion = s.w.env.completion ∧ (latchAt s).w.env.refSpeed = s.w.env.refSpeed
      ∧ (latchAt s).w.env.refDir = s.w.env.refDir ∧ (latchAt s).w.env.phase = s.w.env.phase
      ∧ (latchAt s).w.seq = s.w.seq ∧ (latchAt s).w.flt = s.w.flt ∧ (latchAt s).w.panel = s.w.panel
      ∧ (latchAt s).w.drive = s.w.drive ∧ (latchAt s).w.sampleTimer = s.w.sampleTimer ∧ (latchAt s).l = s.l
      ∧ (latchAt s).k = s.k ∧ (latchAt s).pins = s.pins :=
  ⟨rfl, rfl, rfl, rfl, rfl, rfl, rfl, rfl, rfl, rfl, rfl, rfl, rfl, rfl, rfl, rfl, rfl, rfl, rfl, rfl, rfl, rfl, rfl, rfl⟩

@[simp] theorem formCeiling_frame (s : State) :
    (formCeiling s).pending = s.pending ∧ (formCeiling s).clock = s.clock ∧ (formCeiling s).step = s.step
      ∧ (formCeiling s).loader = s.loader ∧ (formCeiling s).cfg = s.cfg ∧ (formCeiling s).listen = s.listen
      ∧ (formCeiling s).line = s.line ∧ (formCeiling s).peers = s.peers ∧ (formCeiling s).w.tr = s.w.tr
      ∧ (formCeiling s).w.env.zones = s.w.env.zones ∧ (formCeiling s).w.env.completion = s.w.env.completion
      ∧ (formCeiling s).w.env.refSpeed = s.w.env.refSpeed ∧ (formCeiling s).w.env.refDir = s.w.env.refDir
      ∧ (formCeiling s).w.seq = s.w.seq ∧ (formCeiling s).w.flt = s.w.flt ∧ (formCeiling s).w.panel = s.w.panel
      ∧ (formCeiling s).w.drive = s.w.drive ∧ (formCeiling s).w.sampleTimer = s.w.sampleTimer
      ∧ (formCeiling s).l = s.l ∧ (formCeiling s).k = s.k ∧ (formCeiling s).pins = s.pins :=
  ⟨rfl, rfl, rfl, rfl, rfl, rfl, rfl, rfl, rfl, rfl, rfl, rfl, rfl, rfl, rfl, rfl, rfl, rfl, rfl, rfl, rfl⟩

@[simp] theorem superviseLimits_frame (s : State) :
    (superviseLimits s).pending = s.pending ∧ (superviseLimits s).clock = s.clock ∧ (superviseLimits s).step = s.step
      ∧ (superviseLimits s).loader = s.loader ∧ (superviseLimits s).cfg = s.cfg
      ∧ (superviseLimits s).listen = s.listen ∧ (superviseLimits s).line = s.line
      ∧ (superviseLimits s).peers = s.peers ∧ (superviseLimits s).w.tr = s.w.tr ∧ (superviseLimits s).w.env = s.w.env
      ∧ (superviseLimits s).w.seq.wind = s.w.seq.wind ∧ (superviseLimits s).w.seq.leg = s.w.seq.leg
      ∧ (superviseLimits s).w.seq.lockout = s.w.seq.lockout ∧ (superviseLimits s).w.seq.permit = s.w.seq.permit
      ∧ (superviseLimits s).w.seq.list = s.w.seq.list ∧ (superviseLimits s).w.seq.seqCounter = s.w.seq.seqCounter
      ∧ (superviseLimits s).w.seq.markCount = s.w.seq.markCount ∧ (superviseLimits s).w.seq.slot = s.w.seq.slot
      ∧ (superviseLimits s).w.seq.custodian = s.w.seq.custodian ∧ (superviseLimits s).w.seq.last = s.w.seq.last
      ∧ (superviseLimits s).w.seq.releaseHold = s.w.seq.releaseHold
      ∧ (superviseLimits s).w.seq.restoration = s.w.seq.restoration
      ∧ (superviseLimits s).w.seq.parked = s.w.seq.parked ∧ (superviseLimits s).w.seq.record = s.w.seq.record
      ∧ (superviseLimits s).w.seq.survey = s.w.seq.survey
      ∧ (superviseLimits s).w.seq.motionTimer = s.w.seq.motionTimer ∧ (superviseLimits s).w.flt.kinds = s.w.flt.kinds
      ∧ (superviseLimits s).w.flt.raised = s.w.flt.raised ∧ (superviseLimits s).w.flt.atSample = s.w.flt.atSample
      ∧ (superviseLimits s).w.flt.overrun = s.w.flt.overrun ∧ (superviseLimits s).w.flt.duplicate = s.w.flt.duplicate
      ∧ (superviseLimits s).w.flt.powerUpTrip = s.w.flt.powerUpTrip
      ∧ (superviseLimits s).w.flt.alarmSet = s.w.flt.alarmSet
      ∧ (superviseLimits s).w.flt.tripCause = s.w.flt.tripCause ∧ (superviseLimits s).w.flt.trip = s.w.flt.trip
      ∧ (superviseLimits s).w.panel = s.w.panel ∧ (superviseLimits s).w.drive = s.w.drive
      ∧ (superviseLimits s).w.sampleTimer = s.w.sampleTimer ∧ (superviseLimits s).l = s.l
      ∧ (superviseLimits s).k = s.k ∧ (superviseLimits s).pins = s.pins :=
  ⟨rfl, rfl, rfl, rfl, rfl, rfl, rfl, rfl, rfl, rfl, rfl, rfl, rfl, rfl, rfl, rfl, rfl, rfl, rfl, rfl, rfl, rfl, rfl,
    rfl, rfl, rfl, rfl, rfl, rfl, rfl, rfl, rfl, rfl, rfl, rfl, rfl, rfl, rfl, rfl, rfl, rfl⟩

@[simp] theorem superviseStop_frame (s : State) :
    (superviseStop s).pending = s.pending ∧ (superviseStop s).clock = s.clock ∧ (superviseStop s).step = s.step
      ∧ (superviseStop s).loader = s.loader ∧ (superviseStop s).cfg = s.cfg ∧ (superviseStop s).listen = s.listen
      ∧ (superviseStop s).line = s.line ∧ (superviseStop s).peers = s.peers ∧ (superviseStop s).w.tr = s.w.tr
      ∧ (superviseStop s).w.env = s.w.env ∧ (superviseStop s).w.seq = s.w.seq
      ∧ (superviseStop s).w.flt.kinds = s.w.flt.kinds ∧ (superviseStop s).w.flt.raised = s.w.flt.raised
      ∧ (superviseStop s).w.flt.atSample = s.w.flt.atSample ∧ (superviseStop s).w.flt.overwind = s.w.flt.overwind
      ∧ (superviseStop s).w.flt.duplicate = s.w.flt.duplicate
      ∧ (superviseStop s).w.flt.powerUpTrip = s.w.flt.powerUpTrip
      ∧ (superviseStop s).w.flt.alarmSet = s.w.flt.alarmSet ∧ (superviseStop s).w.flt.tripCause = s.w.flt.tripCause
      ∧ (superviseStop s).w.flt.trip = s.w.flt.trip ∧ (superviseStop s).w.panel = s.w.panel
      ∧ (superviseStop s).w.drive = s.w.drive ∧ (superviseStop s).w.sampleTimer = s.w.sampleTimer
      ∧ (superviseStop s).l = s.l ∧ (superviseStop s).k = s.k ∧ (superviseStop s).pins = s.pins :=
  ⟨rfl, rfl, rfl, rfl, rfl, rfl, rfl, rfl, rfl, rfl, rfl, rfl, rfl, rfl, rfl, rfl, rfl, rfl, rfl, rfl, rfl, rfl, rfl,
    rfl, rfl, rfl⟩

@[simp] theorem setReference_frame (s : State) :
    (setReference s).pending = s.pending ∧ (setReference s).clock = s.clock ∧ (setReference s).step = s.step
      ∧ (setReference s).loader = s.loader ∧ (setReference s).cfg = s.cfg ∧ (setReference s).listen = s.listen
      ∧ (setReference s).line = s.line ∧ (setReference s).peers = s.peers ∧ (setReference s).w.tr = s.w.tr
      ∧ (setReference s).w.env.ceiling = s.w.env.ceiling ∧ (setReference s).w.env.zones = s.w.env.zones
      ∧ (setReference s).w.env.applied = s.w.env.applied
      ∧ (setReference s).w.env.completion = s.w.env.completion ∧ (setReference s).w.env.phase = s.w.env.phase
      ∧ (setReference s).w.seq = s.w.seq ∧ (setReference s).w.flt = s.w.flt ∧ (setReference s).w.panel = s.w.panel
      ∧ (setReference s).w.drive = s.w.drive ∧ (setReference s).w.sampleTimer = s.w.sampleTimer
      ∧ (setReference s).l = s.l ∧ (setReference s).k = s.k ∧ (setReference s).pins = s.pins :=
  ⟨rfl, rfl, rfl, rfl, rfl, rfl, rfl, rfl, rfl, rfl, rfl, rfl, rfl, rfl, rfl, rfl, rfl, rfl, rfl, rfl, rfl, rfl⟩

@[simp] theorem zeroReference_frame (s : State) :
    (zeroReference s).pending = s.pending ∧ (zeroReference s).clock = s.clock ∧ (zeroReference s).step = s.step
      ∧ (zeroReference s).loader = s.loader ∧ (zeroReference s).cfg = s.cfg ∧ (zeroReference s).listen = s.listen
      ∧ (zeroReference s).line = s.line ∧ (zeroReference s).peers = s.peers ∧ (zeroReference s).w.tr = s.w.tr
      ∧ (zeroReference s).w.env.ceiling = s.w.env.ceiling ∧ (zeroReference s).w.env.zones = s.w.env.zones
      ∧ (zeroReference s).w.env.applied = s.w.env.applied
      ∧ (zeroReference s).w.env.completion = s.w.env.completion ∧ (zeroReference s).w.env.phase = s.w.env.phase
      ∧ (zeroReference s).w.seq = s.w.seq ∧ (zeroReference s).w.flt = s.w.flt ∧ (zeroReference s).w.panel = s.w.panel
      ∧ (zeroReference s).w.drive = s.w.drive ∧ (zeroReference s).w.sampleTimer = s.w.sampleTimer
      ∧ (zeroReference s).l = s.l ∧ (zeroReference s).k = s.k ∧ (zeroReference s).pins = s.pins :=
  ⟨rfl, rfl, rfl, rfl, rfl, rfl, rfl, rfl, rfl, rfl, rfl, rfl, rfl, rfl, rfl, rfl, rfl, rfl, rfl, rfl, rfl, rfl⟩

@[simp] theorem markEntry_frame (s : State) (c : Call) :
    (markEntry c s).pending = s.pending ∧ (markEntry c s).clock = s.clock ∧ (markEntry c s).step = s.step
      ∧ (markEntry c s).loader = s.loader ∧ (markEntry c s).cfg = s.cfg ∧ (markEntry c s).listen = s.listen
      ∧ (markEntry c s).line = s.line ∧ (markEntry c s).peers = s.peers ∧ (markEntry c s).w.tr = s.w.tr
      ∧ (markEntry c s).w.env = s.w.env ∧ (markEntry c s).w.seq.wind = s.w.seq.wind
      ∧ (markEntry c s).w.seq.leg = s.w.seq.leg ∧ (markEntry c s).w.seq.lockout = s.w.seq.lockout
      ∧ (markEntry c s).w.seq.overwind = s.w.seq.overwind ∧ (markEntry c s).w.seq.permit = s.w.seq.permit
      ∧ (markEntry c s).w.seq.seqCounter = s.w.seq.seqCounter ∧ (markEntry c s).w.seq.slot = s.w.seq.slot
      ∧ (markEntry c s).w.seq.custodian = s.w.seq.custodian ∧ (markEntry c s).w.seq.last = s.w.seq.last
      ∧ (markEntry c s).w.seq.releaseHold = s.w.seq.releaseHold
      ∧ (markEntry c s).w.seq.restoration = s.w.seq.restoration ∧ (markEntry c s).w.seq.parked = s.w.seq.parked
      ∧ (markEntry c s).w.seq.record = s.w.seq.record ∧ (markEntry c s).w.seq.survey = s.w.seq.survey
      ∧ (markEntry c s).w.seq.motionTimer = s.w.seq.motionTimer ∧ (markEntry c s).w.flt = s.w.flt
      ∧ (markEntry c s).w.panel = s.w.panel ∧ (markEntry c s).w.drive = s.w.drive
      ∧ (markEntry c s).w.sampleTimer = s.w.sampleTimer ∧ (markEntry c s).l = s.l ∧ (markEntry c s).k = s.k
      ∧ (markEntry c s).pins = s.pins :=
  ⟨rfl, rfl, rfl, rfl, rfl, rfl, rfl, rfl, rfl, rfl, rfl, rfl, rfl, rfl, rfl, rfl, rfl, rfl, rfl, rfl, rfl, rfl, rfl,
    rfl, rfl, rfl, rfl, rfl, rfl, rfl, rfl, rfl⟩

@[simp] theorem removeEntry_frame (s : State) (c : Call) :
    (removeEntry c s).pending = s.pending ∧ (removeEntry c s).clock = s.clock ∧ (removeEntry c s).step = s.step
      ∧ (removeEntry c s).loader = s.loader ∧ (removeEntry c s).cfg = s.cfg ∧ (removeEntry c s).listen = s.listen
      ∧ (removeEntry c s).line = s.line ∧ (removeEntry c s).peers = s.peers ∧ (removeEntry c s).w.tr = s.w.tr
      ∧ (removeEntry c s).w.env = s.w.env ∧ (removeEntry c s).w.seq.wind = s.w.seq.wind
      ∧ (removeEntry c s).w.seq.leg = s.w.seq.leg ∧ (removeEntry c s).w.seq.lockout = s.w.seq.lockout
      ∧ (removeEntry c s).w.seq.overwind = s.w.seq.overwind ∧ (removeEntry c s).w.seq.permit = s.w.seq.permit
      ∧ (removeEntry c s).w.seq.seqCounter = s.w.seq.seqCounter
      ∧ (removeEntry c s).w.seq.markCount = s.w.seq.markCount ∧ (removeEntry c s).w.seq.slot = s.w.seq.slot
      ∧ (removeEntry c s).w.seq.custodian = s.w.seq.custodian ∧ (removeEntry c s).w.seq.last = s.w.seq.last
      ∧ (removeEntry c s).w.seq.releaseHold = s.w.seq.releaseHold
      ∧ (removeEntry c s).w.seq.restoration = s.w.seq.restoration ∧ (removeEntry c s).w.seq.parked = s.w.seq.parked
      ∧ (removeEntry c s).w.seq.record = s.w.seq.record ∧ (removeEntry c s).w.seq.survey = s.w.seq.survey
      ∧ (removeEntry c s).w.seq.motionTimer = s.w.seq.motionTimer ∧ (removeEntry c s).w.flt = s.w.flt
      ∧ (removeEntry c s).w.panel = s.w.panel ∧ (removeEntry c s).w.drive = s.w.drive
      ∧ (removeEntry c s).w.sampleTimer = s.w.sampleTimer ∧ (removeEntry c s).l = s.l ∧ (removeEntry c s).k = s.k
      ∧ (removeEntry c s).pins = s.pins :=
  ⟨rfl, rfl, rfl, rfl, rfl, rfl, rfl, rfl, rfl, rfl, rfl, rfl, rfl, rfl, rfl, rfl, rfl, rfl, rfl, rfl, rfl, rfl, rfl,
    rfl, rfl, rfl, rfl, rfl, rfl, rfl, rfl, rfl, rfl⟩

@[simp] theorem setPair_frame (s : State) (c l : Option Nat) :
    (setPair c l s).pending = s.pending ∧ (setPair c l s).clock = s.clock ∧ (setPair c l s).step = s.step
      ∧ (setPair c l s).loader = s.loader ∧ (setPair c l s).cfg = s.cfg ∧ (setPair c l s).listen = s.listen
      ∧ (setPair c l s).line = s.line ∧ (setPair c l s).peers = s.peers ∧ (setPair c l s).w.tr = s.w.tr
      ∧ (setPair c l s).w.env = s.w.env ∧ (setPair c l s).w.seq.wind = s.w.seq.wind
      ∧ (setPair c l s).w.seq.leg = s.w.seq.leg ∧ (setPair c l s).w.seq.lockout = s.w.seq.lockout
      ∧ (setPair c l s).w.seq.overwind = s.w.seq.overwind ∧ (setPair c l s).w.seq.permit = s.w.seq.permit
      ∧ (setPair c l s).w.seq.list = s.w.seq.list ∧ (setPair c l s).w.seq.seqCounter = s.w.seq.seqCounter
      ∧ (setPair c l s).w.seq.markCount = s.w.seq.markCount ∧ (setPair c l s).w.seq.slot = s.w.seq.slot
      ∧ (setPair c l s).w.seq.restoration = s.w.seq.restoration ∧ (setPair c l s).w.seq.parked = s.w.seq.parked
      ∧ (setPair c l s).w.seq.record = s.w.seq.record ∧ (setPair c l s).w.seq.survey = s.w.seq.survey
      ∧ (setPair c l s).w.seq.motionTimer = s.w.seq.motionTimer ∧ (setPair c l s).w.flt = s.w.flt
      ∧ (setPair c l s).w.panel = s.w.panel ∧ (setPair c l s).w.drive = s.w.drive
      ∧ (setPair c l s).w.sampleTimer = s.w.sampleTimer ∧ (setPair c l s).l = s.l ∧ (setPair c l s).k = s.k
      ∧ (setPair c l s).pins = s.pins :=
  ⟨rfl, rfl, rfl, rfl, rfl, rfl, rfl, rfl, rfl, rfl, rfl, rfl, rfl, rfl, rfl, rfl, rfl, rfl, rfl, rfl, rfl, rfl, rfl,
    rfl, rfl, rfl, rfl, rfl, rfl, rfl, rfl⟩

@[simp] theorem advanceSeq_frame (s : State) :
    (advanceSeq s).pending = s.pending ∧ (advanceSeq s).clock = s.clock ∧ (advanceSeq s).step = s.step
      ∧ (advanceSeq s).loader = s.loader ∧ (advanceSeq s).cfg = s.cfg ∧ (advanceSeq s).listen = s.listen
      ∧ (advanceSeq s).line = s.line ∧ (advanceSeq s).peers = s.peers ∧ (advanceSeq s).w.tr = s.w.tr
      ∧ (advanceSeq s).w.env = s.w.env ∧ (advanceSeq s).w.seq.wind = s.w.seq.wind
      ∧ (advanceSeq s).w.seq.leg = s.w.seq.leg ∧ (advanceSeq s).w.seq.lockout = s.w.seq.lockout
      ∧ (advanceSeq s).w.seq.overwind = s.w.seq.overwind ∧ (advanceSeq s).w.seq.permit = s.w.seq.permit
      ∧ (advanceSeq s).w.seq.list = s.w.seq.list ∧ (advanceSeq s).w.seq.markCount = s.w.seq.markCount
      ∧ (advanceSeq s).w.seq.slot = s.w.seq.slot ∧ (advanceSeq s).w.seq.custodian = s.w.seq.custodian
      ∧ (advanceSeq s).w.seq.last = s.w.seq.last ∧ (advanceSeq s).w.seq.releaseHold = s.w.seq.releaseHold
      ∧ (advanceSeq s).w.seq.restoration = s.w.seq.restoration ∧ (advanceSeq s).w.seq.parked = s.w.seq.parked
      ∧ (advanceSeq s).w.seq.record = s.w.seq.record ∧ (advanceSeq s).w.seq.survey = s.w.seq.survey
      ∧ (advanceSeq s).w.seq.motionTimer = s.w.seq.motionTimer ∧ (advanceSeq s).w.flt = s.w.flt
      ∧ (advanceSeq s).w.panel = s.w.panel ∧ (advanceSeq s).w.drive = s.w.drive
      ∧ (advanceSeq s).w.sampleTimer = s.w.sampleTimer ∧ (advanceSeq s).l = s.l ∧ (advanceSeq s).k = s.k
      ∧ (advanceSeq s).pins = s.pins :=
  ⟨rfl, rfl, rfl, rfl, rfl, rfl, rfl, rfl, rfl, rfl, rfl, rfl, rfl, rfl, rfl, rfl, rfl, rfl, rfl, rfl, rfl, rfl, rfl,
    rfl, rfl, rfl, rfl, rfl, rfl, rfl, rfl, rfl, rfl⟩

@[simp] theorem addEntry_frame (s : State) (c : Call) :
    (addEntry c s).pending = s.pending ∧ (addEntry c s).clock = s.clock ∧ (addEntry c s).step = s.step
      ∧ (addEntry c s).loader = s.loader ∧ (addEntry c s).cfg = s.cfg ∧ (addEntry c s).listen = s.listen
      ∧ (addEntry c s).line = s.line ∧ (addEntry c s).peers = s.peers ∧ (addEntry c s).w.tr = s.w.tr
      ∧ (addEntry c s).w.env = s.w.env ∧ (addEntry c s).w.seq.wind = s.w.seq.wind
      ∧ (addEntry c s).w.seq.leg = s.w.seq.leg ∧ (addEntry c s).w.seq.lockout = s.w.seq.lockout
      ∧ (addEntry c s).w.seq.overwind = s.w.seq.overwind ∧ (addEntry c s).w.seq.permit = s.w.seq.permit
      ∧ (addEntry c s).w.seq.markCount = s.w.seq.markCount ∧ (addEntry c s).w.seq.slot = s.w.seq.slot
      ∧ (addEntry c s).w.seq.custodian = s.w.seq.custodian ∧ (addEntry c s).w.seq.last = s.w.seq.last
      ∧ (addEntry c s).w.seq.releaseHold = s.w.seq.releaseHold
      ∧ (addEntry c s).w.seq.restoration = s.w.seq.restoration ∧ (addEntry c s).w.seq.parked = s.w.seq.parked
      ∧ (addEntry c s).w.seq.record = s.w.seq.record ∧ (addEntry c s).w.seq.survey = s.w.seq.survey
      ∧ (addEntry c s).w.seq.motionTimer = s.w.seq.motionTimer ∧ (addEntry c s).w.flt = s.w.flt
      ∧ (addEntry c s).w.panel = s.w.panel ∧ (addEntry c s).w.drive = s.w.drive
      ∧ (addEntry c s).w.sampleTimer = s.w.sampleTimer ∧ (addEntry c s).l = s.l ∧ (addEntry c s).k = s.k
      ∧ (addEntry c s).pins = s.pins :=
  ⟨rfl, rfl, rfl, rfl, rfl, rfl, rfl, rfl, rfl, rfl, rfl, rfl, rfl, rfl, rfl, rfl, rfl, rfl, rfl, rfl, rfl, rfl, rfl,
    rfl, rfl, rfl, rfl, rfl, rfl, rfl, rfl, rfl⟩

@[simp] theorem completeAt_frame (s : State) (n : Nat) :
    (completeAt n s).pending = s.pending ∧ (completeAt n s).clock = s.clock ∧ (completeAt n s).step = s.step
      ∧ (completeAt n s).loader = s.loader ∧ (completeAt n s).cfg = s.cfg ∧ (completeAt n s).listen = s.listen
      ∧ (completeAt n s).line = s.line ∧ (completeAt n s).peers = s.peers ∧ (completeAt n s).w.tr = s.w.tr
      ∧ (completeAt n s).w.env = s.w.env ∧ (completeAt n s).w.seq.wind = s.w.seq.wind
      ∧ (completeAt n s).w.seq.leg = s.w.seq.leg ∧ (completeAt n s).w.seq.lockout = s.w.seq.lockout
      ∧ (completeAt n s).w.seq.overwind = s.w.seq.overwind ∧ (completeAt n s).w.seq.permit = s.w.seq.permit
      ∧ (completeAt n s).w.seq.seqCounter = s.w.seq.seqCounter ∧ (completeAt n s).w.seq.markCount = s.w.seq.markCount
      ∧ (completeAt n s).w.seq.slot = s.w.seq.slot ∧ (completeAt n s).w.seq.custodian = s.w.seq.custodian
      ∧ (completeAt n s).w.seq.last = s.w.seq.last ∧ (completeAt n s).w.seq.releaseHold = s.w.seq.releaseHold
      ∧ (completeAt n s).w.seq.restoration = s.w.seq.restoration ∧ (completeAt n s).w.seq.parked = s.w.seq.parked
      ∧ (completeAt n s).w.seq.record = s.w.seq.record ∧ (completeAt n s).w.seq.survey = s.w.seq.survey
      ∧ (completeAt n s).w.seq.motionTimer = s.w.seq.motionTimer ∧ (completeAt n s).w.flt = s.w.flt
      ∧ (completeAt n s).w.panel = s.w.panel ∧ (completeAt n s).w.drive = s.w.drive
      ∧ (completeAt n s).w.sampleTimer = s.w.sampleTimer ∧ (completeAt n s).l = s.l ∧ (completeAt n s).k = s.k
      ∧ (completeAt n s).pins = s.pins :=
  ⟨rfl, rfl, rfl, rfl, rfl, rfl, rfl, rfl, rfl, rfl, rfl, rfl, rfl, rfl, rfl, rfl, rfl, rfl, rfl, rfl, rfl, rfl, rfl,
    rfl, rfl, rfl, rfl, rfl, rfl, rfl, rfl, rfl, rfl⟩

@[simp] theorem setWind_frame (s : State) (w : WindState) :
    (setWind w s).pending = s.pending ∧ (setWind w s).clock = s.clock ∧ (setWind w s).step = s.step
      ∧ (setWind w s).loader = s.loader ∧ (setWind w s).cfg = s.cfg ∧ (setWind w s).listen = s.listen
      ∧ (setWind w s).line = s.line ∧ (setWind w s).peers = s.peers ∧ (setWind w s).w.tr.n = s.w.tr.n
      ∧ (setWind w s).w.tr.nSample = s.w.tr.nSample ∧ (setWind w s).w.tr.origin = s.w.tr.origin
      ∧ (setWind w s).w.tr.x = s.w.tr.x ∧ (setWind w s).w.tr.v = s.w.tr.v ∧ (setWind w s).w.tr.dir = s.w.tr.dir
      ∧ (setWind w s).w.tr.cls = s.w.tr.cls
      ∧ (setWind w s).w.tr.clsSample = s.w.tr.clsSample ∧ (setWind w s).w.tr.k = s.w.tr.k
      ∧ (setWind w s).w.tr.history = s.w.tr.history ∧ (setWind w s).w.tr.learned = s.w.tr.learned
      ∧ (setWind w s).w.tr.validated = s.w.tr.validated ∧ (setWind w s).w.tr.window = s.w.tr.window
      ∧ (setWind w s).w.env.ceiling = s.w.env.ceiling ∧ (setWind w s).w.env.zones = s.w.env.zones
      ∧ (setWind w s).w.env.applied = s.w.env.applied
      ∧ (setWind w s).w.env.refSpeed = s.w.env.refSpeed ∧ (setWind w s).w.env.refDir = s.w.env.refDir
      ∧ (setWind w s).w.env.phase = s.w.env.phase ∧ (setWind w s).w.seq.lockout = s.w.seq.lockout
      ∧ (setWind w s).w.seq.overwind = s.w.seq.overwind ∧ (setWind w s).w.seq.permit = s.w.seq.permit
      ∧ (setWind w s).w.seq.list = s.w.seq.list ∧ (setWind w s).w.seq.seqCounter = s.w.seq.seqCounter
      ∧ (setWind w s).w.seq.markCount = s.w.seq.markCount ∧ (setWind w s).w.seq.slot = s.w.seq.slot
      ∧ (setWind w s).w.seq.custodian = s.w.seq.custodian ∧ (setWind w s).w.seq.last = s.w.seq.last
      ∧ (setWind w s).w.seq.releaseHold = s.w.seq.releaseHold ∧ (setWind w s).w.seq.restoration = s.w.seq.restoration
      ∧ (setWind w s).w.seq.record = s.w.seq.record ∧ (setWind w s).w.seq.survey = s.w.seq.survey
      ∧ (setWind w s).w.seq.motionTimer = s.w.seq.motionTimer ∧ (setWind w s).w.flt = s.w.flt
      ∧ (setWind w s).w.panel = s.w.panel ∧ (setWind w s).w.drive = s.w.drive
      ∧ (setWind w s).w.sampleTimer = s.w.sampleTimer ∧ (setWind w s).l = s.l ∧ (setWind w s).k = s.k
      ∧ (setWind w s).pins = s.pins :=
  ⟨rfl, rfl, rfl, rfl, rfl, rfl, rfl, rfl, rfl, rfl, rfl, rfl, rfl, rfl, rfl, rfl, rfl, rfl, rfl, rfl, rfl, rfl, rfl,
    rfl, rfl, rfl, rfl, rfl, rfl, rfl, rfl, rfl, rfl, rfl, rfl, rfl, rfl, rfl, rfl, rfl, rfl, rfl, rfl, rfl, rfl,
    rfl, rfl, rfl⟩

@[simp] theorem sendTelegram_frame (s : State) :
    (sendTelegram s).pending = s.pending ∧ (sendTelegram s).clock = s.clock ∧ (sendTelegram s).step = s.step
      ∧ (sendTelegram s).loader = s.loader ∧ (sendTelegram s).cfg = s.cfg ∧ (sendTelegram s).listen = s.listen
      ∧ (sendTelegram s).line = s.line ∧ (sendTelegram s).peers = s.peers ∧ (sendTelegram s).w.tr = s.w.tr
      ∧ (sendTelegram s).w.env = s.w.env ∧ (sendTelegram s).w.seq = s.w.seq ∧ (sendTelegram s).w.flt = s.w.flt
      ∧ (sendTelegram s).w.panel = s.w.panel ∧ (sendTelegram s).w.sampleTimer = s.w.sampleTimer
      ∧ (sendTelegram s).l = s.l ∧ (sendTelegram s).k = s.k ∧ (sendTelegram s).pins = s.pins :=
  ⟨rfl, rfl, rfl, rfl, rfl, rfl, rfl, rfl, rfl, rfl, rfl, rfl, rfl, rfl, rfl, rfl, rfl⟩

@[simp] theorem markSurveyFailed_frame (s : State) (o : SurveyOutcome) (f : Option (Nat × Conv)) :
    (markSurveyFailed o f s).pending = s.pending ∧ (markSurveyFailed o f s).clock = s.clock
      ∧ (markSurveyFailed o f s).step = s.step ∧ (markSurveyFailed o f s).loader = s.loader
      ∧ (markSurveyFailed o f s).cfg = s.cfg ∧ (markSurveyFailed o f s).listen = s.listen
      ∧ (markSurveyFailed o f s).line = s.line ∧ (markSurveyFailed o f s).peers = s.peers
      ∧ (markSurveyFailed o f s).w.tr.n = s.w.tr.n ∧ (markSurveyFailed o f s).w.tr.nSample = s.w.tr.nSample
      ∧ (markSurveyFailed o f s).w.tr.origin = s.w.tr.origin ∧ (markSurveyFailed o f s).w.tr.x = s.w.tr.x
      ∧ (markSurveyFailed o f s).w.tr.v = s.w.tr.v ∧ (markSurveyFailed o f s).w.tr.dir = s.w.tr.dir
      ∧ (markSurveyFailed o f s).w.tr.cls = s.w.tr.cls
      ∧ (markSurveyFailed o f s).w.tr.clsSample = s.w.tr.clsSample ∧ (markSurveyFailed o f s).w.tr.k = s.w.tr.k
      ∧ (markSurveyFailed o f s).w.tr.history = s.w.tr.history ∧ (markSurveyFailed o f s).w.tr.window = s.w.tr.window
      ∧ (markSurveyFailed o f s).w.env = s.w.env ∧ (markSurveyFailed o f s).w.seq.wind = s.w.seq.wind
      ∧ (markSurveyFailed o f s).w.seq.leg = s.w.seq.leg ∧ (markSurveyFailed o f s).w.seq.lockout = s.w.seq.lockout
      ∧ (markSurveyFailed o f s).w.seq.overwind = s.w.seq.overwind
      ∧ (markSurveyFailed o f s).w.seq.permit = s.w.seq.permit ∧ (markSurveyFailed o f s).w.seq.list = s.w.seq.list
      ∧ (markSurveyFailed o f s).w.seq.seqCounter = s.w.seq.seqCounter
      ∧ (markSurveyFailed o f s).w.seq.markCount = s.w.seq.markCount
      ∧ (markSurveyFailed o f s).w.seq.slot = s.w.seq.slot
      ∧ (markSurveyFailed o f s).w.seq.custodian = s.w.seq.custodian
      ∧ (markSurveyFailed o f s).w.seq.last = s.w.seq.last
      ∧ (markSurveyFailed o f s).w.seq.releaseHold = s.w.seq.releaseHold
      ∧ (markSurveyFailed o f s).w.seq.restoration = s.w.seq.restoration
      ∧ (markSurveyFailed o f s).w.seq.parked = s.w.seq.parked
      ∧ (markSurveyFailed o f s).w.seq.record = s.w.seq.record
      ∧ (markSurveyFailed o f s).w.seq.motionTimer = s.w.seq.motionTimer ∧ (markSurveyFailed o f s).w.flt = s.w.flt
      ∧ (markSurveyFailed o f s).w.panel = s.w.panel ∧ (markSurveyFailed o f s).w.drive = s.w.drive
      ∧ (markSurveyFailed o f s).w.sampleTimer = s.w.sampleTimer ∧ (markSurveyFailed o f s).l = s.l
      ∧ (markSurveyFailed o f s).k = s.k ∧ (markSurveyFailed o f s).pins = s.pins :=
  ⟨rfl, rfl, rfl, rfl, rfl, rfl, rfl, rfl, rfl, rfl, rfl, rfl, rfl, rfl, rfl, rfl, rfl, rfl, rfl, rfl, rfl, rfl, rfl,
    rfl, rfl, rfl, rfl, rfl, rfl, rfl, rfl, rfl, rfl, rfl, rfl, rfl, rfl, rfl, rfl, rfl, rfl, rfl, rfl⟩

@[simp] theorem prepare_frame (s : State) (g : Leg) (cs : List Call) :
    (prepare g cs s).pending = s.pending ∧ (prepare g cs s).clock = s.clock ∧ (prepare g cs s).step = s.step
      ∧ (prepare g cs s).loader = s.loader ∧ (prepare g cs s).cfg = s.cfg ∧ (prepare g cs s).listen = s.listen
      ∧ (prepare g cs s).line = s.line ∧ (prepare g cs s).peers = s.peers ∧ (prepare g cs s).w.tr.n = s.w.tr.n
      ∧ (prepare g cs s).w.tr.nSample = s.w.tr.nSample ∧ (prepare g cs s).w.tr.origin = s.w.tr.origin
      ∧ (prepare g cs s).w.tr.x = s.w.tr.x ∧ (prepare g cs s).w.tr.v = s.w.tr.v
      ∧ (prepare g cs s).w.tr.dir = s.w.tr.dir ∧ (prepare g cs s).w.tr.cls = s.w.tr.cls
      ∧ (prepare g cs s).w.tr.clsSample = s.w.tr.clsSample
      ∧ (prepare g cs s).w.tr.k = s.w.tr.k ∧ (prepare g cs s).w.tr.history = s.w.tr.history
      ∧ (prepare g cs s).w.tr.learned = s.w.tr.learned ∧ (prepare g cs s).w.tr.validated = s.w.tr.validated
      ∧ (prepare g cs s).w.tr.window = s.w.tr.window ∧ (prepare g cs s).w.env.ceiling = s.w.env.ceiling
      ∧ (prepare g cs s).w.env.zones = s.w.env.zones
      ∧ (prepare g cs s).w.env.applied = s.w.env.applied ∧ (prepare g cs s).w.env.refSpeed = s.w.env.refSpeed
      ∧ (prepare g cs s).w.env.refDir = s.w.env.refDir ∧ (prepare g cs s).w.env.phase = s.w.env.phase
      ∧ (prepare g cs s).w.seq.lockout = s.w.seq.lockout ∧ (prepare g cs s).w.seq.overwind = s.w.seq.overwind
      ∧ (prepare g cs s).w.seq.list = s.w.seq.list ∧ (prepare g cs s).w.seq.seqCounter = s.w.seq.seqCounter
      ∧ (prepare g cs s).w.seq.markCount = s.w.seq.markCount ∧ (prepare g cs s).w.seq.custodian = s.w.seq.custodian
      ∧ (prepare g cs s).w.seq.last = s.w.seq.last ∧ (prepare g cs s).w.seq.releaseHold = s.w.seq.releaseHold
      ∧ (prepare g cs s).w.seq.restoration = s.w.seq.restoration ∧ (prepare g cs s).w.seq.record = s.w.seq.record
      ∧ (prepare g cs s).w.seq.survey = s.w.seq.survey ∧ (prepare g cs s).w.seq.motionTimer = s.w.seq.motionTimer
      ∧ (prepare g cs s).w.flt = s.w.flt ∧ (prepare g cs s).w.panel = s.w.panel
      ∧ (prepare g cs s).w.drive = s.w.drive ∧ (prepare g cs s).w.sampleTimer = s.w.sampleTimer
      ∧ (prepare g cs s).l = s.l ∧ (prepare g cs s).k = s.k ∧ (prepare g cs s).pins = s.pins :=
  ⟨rfl, rfl, rfl, rfl, rfl, rfl, rfl, rfl, rfl, rfl, rfl, rfl, rfl, rfl, rfl, rfl, rfl, rfl, rfl, rfl, rfl, rfl, rfl,
    rfl, rfl, rfl, rfl, rfl, rfl, rfl, rfl, rfl, rfl, rfl, rfl, rfl, rfl, rfl, rfl, rfl, rfl, rfl, rfl, rfl, rfl, rfl⟩

@[simp] theorem returnCalls_frame (s : State) :
    (returnCalls s).pending = s.pending ∧ (returnCalls s).clock = s.clock ∧ (returnCalls s).step = s.step
      ∧ (returnCalls s).loader = s.loader ∧ (returnCalls s).cfg = s.cfg ∧ (returnCalls s).listen = s.listen
      ∧ (returnCalls s).line = s.line ∧ (returnCalls s).peers = s.peers ∧ (returnCalls s).w.tr = s.w.tr
      ∧ (returnCalls s).w.env = s.w.env ∧ (returnCalls s).w.seq.wind = s.w.seq.wind
      ∧ (returnCalls s).w.seq.leg = s.w.seq.leg ∧ (returnCalls s).w.seq.lockout = s.w.seq.lockout
      ∧ (returnCalls s).w.seq.overwind = s.w.seq.overwind ∧ (returnCalls s).w.seq.permit = s.w.seq.permit
      ∧ (returnCalls s).w.seq.seqCounter = s.w.seq.seqCounter ∧ (returnCalls s).w.seq.markCount = s.w.seq.markCount
      ∧ (returnCalls s).w.seq.custodian = s.w.seq.custodian ∧ (returnCalls s).w.seq.last = s.w.seq.last
      ∧ (returnCalls s).w.seq.releaseHold = s.w.seq.releaseHold
      ∧ (returnCalls s).w.seq.restoration = s.w.seq.restoration ∧ (returnCalls s).w.seq.parked = s.w.seq.parked
      ∧ (returnCalls s).w.seq.record = s.w.seq.record ∧ (returnCalls s).w.seq.survey = s.w.seq.survey
      ∧ (returnCalls s).w.seq.motionTimer = s.w.seq.motionTimer ∧ (returnCalls s).w.flt = s.w.flt
      ∧ (returnCalls s).w.panel = s.w.panel ∧ (returnCalls s).w.drive = s.w.drive
      ∧ (returnCalls s).w.sampleTimer = s.w.sampleTimer ∧ (returnCalls s).l = s.l ∧ (returnCalls s).k = s.k
      ∧ (returnCalls s).pins = s.pins :=
  ⟨rfl, rfl, rfl, rfl, rfl, rfl, rfl, rfl, rfl, rfl, rfl, rfl, rfl, rfl, rfl, rfl, rfl, rfl, rfl, rfl, rfl, rfl, rfl,
    rfl, rfl, rfl, rfl, rfl, rfl, rfl, rfl, rfl⟩

@[simp] theorem enterStopping_frame (s : State) (c : Cause) :
    (enterStopping c s).pending = s.pending ∧ (enterStopping c s).clock = s.clock ∧ (enterStopping c s).step = s.step
      ∧ (enterStopping c s).loader = s.loader ∧ (enterStopping c s).cfg = s.cfg
      ∧ (enterStopping c s).listen = s.listen ∧ (enterStopping c s).line = s.line
      ∧ (enterStopping c s).peers = s.peers ∧ (enterStopping c s).w.tr = s.w.tr
      ∧ (enterStopping c s).w.env.ceiling = s.w.env.ceiling ∧ (enterStopping c s).w.env.zones = s.w.env.zones
      ∧ (enterStopping c s).w.env.applied = s.w.env.applied
      ∧ (enterStopping c s).w.env.refSpeed = s.w.env.refSpeed ∧ (enterStopping c s).w.env.refDir = s.w.env.refDir
      ∧ (enterStopping c s).w.env.phase = s.w.env.phase ∧ (enterStopping c s).w.seq.leg = s.w.seq.leg
      ∧ (enterStopping c s).w.seq.lockout = s.w.seq.lockout ∧ (enterStopping c s).w.seq.overwind = s.w.seq.overwind
      ∧ (enterStopping c s).w.seq.permit = s.w.seq.permit ∧ (enterStopping c s).w.seq.list = s.w.seq.list
      ∧ (enterStopping c s).w.seq.seqCounter = s.w.seq.seqCounter
      ∧ (enterStopping c s).w.seq.markCount = s.w.seq.markCount ∧ (enterStopping c s).w.seq.slot = s.w.seq.slot
      ∧ (enterStopping c s).w.seq.custodian = s.w.seq.custodian ∧ (enterStopping c s).w.seq.last = s.w.seq.last
      ∧ (enterStopping c s).w.seq.releaseHold = s.w.seq.releaseHold
      ∧ (enterStopping c s).w.seq.restoration = s.w.seq.restoration
      ∧ (enterStopping c s).w.seq.record = s.w.seq.record ∧ (enterStopping c s).w.seq.survey = s.w.seq.survey
      ∧ (enterStopping c s).w.seq.motionTimer = s.w.seq.motionTimer ∧ (enterStopping c s).w.flt = s.w.flt
      ∧ (enterStopping c s).w.panel = s.w.panel ∧ (enterStopping c s).w.drive = s.w.drive
      ∧ (enterStopping c s).w.sampleTimer = s.w.sampleTimer ∧ (enterStopping c s).l = s.l
      ∧ (enterStopping c s).k = s.k ∧ (enterStopping c s).pins = s.pins :=
  ⟨rfl, rfl, rfl, rfl, rfl, rfl, rfl, rfl, rfl, rfl, rfl, rfl, rfl, rfl, rfl, rfl, rfl, rfl, rfl, rfl, rfl, rfl, rfl,
    rfl, rfl, rfl, rfl, rfl, rfl, rfl, rfl, rfl, rfl, rfl, rfl, rfl, rfl⟩

@[simp] theorem raiseInspection_frame (s : State) (d : Dir) :
    (raiseInspection d s).pending = s.pending ∧ (raiseInspection d s).clock = s.clock
      ∧ (raiseInspection d s).step = s.step ∧ (raiseInspection d s).loader = s.loader
      ∧ (raiseInspection d s).cfg = s.cfg ∧ (raiseInspection d s).listen = s.listen
      ∧ (raiseInspection d s).line = s.line ∧ (raiseInspection d s).peers = s.peers
      ∧ (raiseInspection d s).w.tr = s.w.tr ∧ (raiseInspection d s).w.env.ceiling = s.w.env.ceiling
      ∧ (raiseInspection d s).w.env.zones = s.w.env.zones
      ∧ (raiseInspection d s).w.env.applied = s.w.env.applied
      ∧ (raiseInspection d s).w.env.completion = s.w.env.completion
      ∧ (raiseInspection d s).w.env.refSpeed = s.w.env.refSpeed ∧ (raiseInspection d s).w.env.refDir = s.w.env.refDir
      ∧ (raiseInspection d s).w.env.phase = s.w.env.phase ∧ (raiseInspection d s).w.seq.wind = s.w.seq.wind
      ∧ (raiseInspection d s).w.seq.leg = s.w.seq.leg ∧ (raiseInspection d s).w.seq.lockout = s.w.seq.lockout
      ∧ (raiseInspection d s).w.seq.overwind = s.w.seq.overwind ∧ (raiseInspection d s).w.seq.list = s.w.seq.list
      ∧ (raiseInspection d s).w.seq.seqCounter = s.w.seq.seqCounter
      ∧ (raiseInspection d s).w.seq.markCount = s.w.seq.markCount ∧ (raiseInspection d s).w.seq.slot = s.w.seq.slot
      ∧ (raiseInspection d s).w.seq.custodian = s.w.seq.custodian ∧ (raiseInspection d s).w.seq.last = s.w.seq.last
      ∧ (raiseInspection d s).w.seq.releaseHold = s.w.seq.releaseHold
      ∧ (raiseInspection d s).w.seq.restoration = s.w.seq.restoration
      ∧ (raiseInspection d s).w.seq.parked = s.w.seq.parked ∧ (raiseInspection d s).w.seq.record = s.w.seq.record
      ∧ (raiseInspection d s).w.seq.survey = s.w.seq.survey
      ∧ (raiseInspection d s).w.seq.motionTimer = s.w.seq.motionTimer ∧ (raiseInspection d s).w.flt = s.w.flt
      ∧ (raiseInspection d s).w.drive = s.w.drive ∧ (raiseInspection d s).w.sampleTimer = s.w.sampleTimer
      ∧ (raiseInspection d s).l = s.l ∧ (raiseInspection d s).k = s.k ∧ (raiseInspection d s).pins = s.pins :=
  ⟨rfl, rfl, rfl, rfl, rfl, rfl, rfl, rfl, rfl, rfl, rfl, rfl, rfl, rfl, rfl, rfl, rfl, rfl, rfl, rfl, rfl, rfl, rfl,
    rfl, rfl, rfl, rfl, rfl, rfl, rfl, rfl, rfl, rfl, rfl, rfl, rfl, rfl, rfl⟩

@[simp] theorem clearForSurvey_frame (s : State) :
    (clearForSurvey s).pending = s.pending ∧ (clearForSurvey s).clock = s.clock ∧ (clearForSurvey s).step = s.step
      ∧ (clearForSurvey s).loader = s.loader ∧ (clearForSurvey s).cfg = s.cfg ∧ (clearForSurvey s).listen = s.listen
      ∧ (clearForSurvey s).line = s.line ∧ (clearForSurvey s).peers = s.peers ∧ (clearForSurvey s).w.tr.n = s.w.tr.n
      ∧ (clearForSurvey s).w.tr.nSample = s.w.tr.nSample ∧ (clearForSurvey s).w.tr.x = s.w.tr.x
      ∧ (clearForSurvey s).w.tr.v = s.w.tr.v ∧ (clearForSurvey s).w.tr.dir = s.w.tr.dir
      ∧ (clearForSurvey s).w.tr.window = s.w.tr.window ∧ (clearForSurvey s).w.env = s.w.env
      ∧ (clearForSurvey s).w.seq = s.w.seq ∧ (clearForSurvey s).w.flt = s.w.flt
      ∧ (clearForSurvey s).w.panel = s.w.panel ∧ (clearForSurvey s).w.drive = s.w.drive
      ∧ (clearForSurvey s).w.sampleTimer = s.w.sampleTimer ∧ (clearForSurvey s).l = s.l ∧ (clearForSurvey s).k = s.k
      ∧ (clearForSurvey s).pins = s.pins :=
  ⟨rfl, rfl, rfl, rfl, rfl, rfl, rfl, rfl, rfl, rfl, rfl, rfl, rfl, rfl, rfl, rfl, rfl, rfl, rfl, rfl, rfl, rfl, rfl⟩

@[simp] theorem refuseSurvey_frame (s : State) :
    (refuseSurvey s).pending = s.pending ∧ (refuseSurvey s).clock = s.clock ∧ (refuseSurvey s).step = s.step
      ∧ (refuseSurvey s).loader = s.loader ∧ (refuseSurvey s).cfg = s.cfg ∧ (refuseSurvey s).listen = s.listen
      ∧ (refuseSurvey s).line = s.line ∧ (refuseSurvey s).peers = s.peers ∧ (refuseSurvey s).w.tr = s.w.tr
      ∧ (refuseSurvey s).w.env = s.w.env ∧ (refuseSurvey s).w.seq.wind = s.w.seq.wind
      ∧ (refuseSurvey s).w.seq.leg = s.w.seq.leg ∧ (refuseSurvey s).w.seq.lockout = s.w.seq.lockout
      ∧ (refuseSurvey s).w.seq.overwind = s.w.seq.overwind ∧ (refuseSurvey s).w.seq.permit = s.w.seq.permit
      ∧ (refuseSurvey s).w.seq.list = s.w.seq.list ∧ (refuseSurvey s).w.seq.seqCounter = s.w.seq.seqCounter
      ∧ (refuseSurvey s).w.seq.markCount = s.w.seq.markCount ∧ (refuseSurvey s).w.seq.slot = s.w.seq.slot
      ∧ (refuseSurvey s).w.seq.custodian = s.w.seq.custodian ∧ (refuseSurvey s).w.seq.last = s.w.seq.last
      ∧ (refuseSurvey s).w.seq.releaseHold = s.w.seq.releaseHold
      ∧ (refuseSurvey s).w.seq.restoration = s.w.seq.restoration ∧ (refuseSurvey s).w.seq.parked = s.w.seq.parked
      ∧ (refuseSurvey s).w.seq.record = s.w.seq.record ∧ (refuseSurvey s).w.seq.motionTimer = s.w.seq.motionTimer
      ∧ (refuseSurvey s).w.flt = s.w.flt ∧ (refuseSurvey s).w.panel = s.w.panel
      ∧ (refuseSurvey s).w.drive = s.w.drive ∧ (refuseSurvey s).w.sampleTimer = s.w.sampleTimer
      ∧ (refuseSurvey s).l = s.l ∧ (refuseSurvey s).k = s.k ∧ (refuseSurvey s).pins = s.pins :=
  ⟨rfl, rfl, rfl, rfl, rfl, rfl, rfl, rfl, rfl, rfl, rfl, rfl, rfl, rfl, rfl, rfl, rfl, rfl, rfl, rfl, rfl, rfl, rfl,
    rfl, rfl, rfl, rfl, rfl, rfl, rfl, rfl, rfl, rfl⟩

@[simp] theorem showRefusal_frame (s : State) (x : RefusalShown) :
    (showRefusal x s).pending = s.pending ∧ (showRefusal x s).clock = s.clock ∧ (showRefusal x s).step = s.step
      ∧ (showRefusal x s).loader = s.loader ∧ (showRefusal x s).cfg = s.cfg ∧ (showRefusal x s).listen = s.listen
      ∧ (showRefusal x s).line = s.line ∧ (showRefusal x s).peers = s.peers ∧ (showRefusal x s).w.tr = s.w.tr
      ∧ (showRefusal x s).w.env = s.w.env ∧ (showRefusal x s).w.seq = s.w.seq ∧ (showRefusal x s).w.flt = s.w.flt
      ∧ (showRefusal x s).w.drive = s.w.drive ∧ (showRefusal x s).w.sampleTimer = s.w.sampleTimer
      ∧ (showRefusal x s).l = s.l ∧ (showRefusal x s).k = s.k ∧ (showRefusal x s).pins = s.pins :=
  ⟨rfl, rfl, rfl, rfl, rfl, rfl, rfl, rfl, rfl, rfl, rfl, rfl, rfl, rfl, rfl, rfl, rfl⟩

@[simp] theorem clearFaults_frame (s : State) :
    (clearFaults s).pending = s.pending ∧ (clearFaults s).clock = s.clock ∧ (clearFaults s).step = s.step
      ∧ (clearFaults s).loader = s.loader ∧ (clearFaults s).cfg = s.cfg ∧ (clearFaults s).listen = s.listen
      ∧ (clearFaults s).line = s.line ∧ (clearFaults s).peers = s.peers ∧ (clearFaults s).w.tr = s.w.tr
      ∧ (clearFaults s).w.env = s.w.env ∧ (clearFaults s).w.seq.wind = s.w.seq.wind
      ∧ (clearFaults s).w.seq.leg = s.w.seq.leg ∧ (clearFaults s).w.seq.overwind = s.w.seq.overwind
      ∧ (clearFaults s).w.seq.permit = s.w.seq.permit ∧ (clearFaults s).w.seq.list = s.w.seq.list
      ∧ (clearFaults s).w.seq.seqCounter = s.w.seq.seqCounter ∧ (clearFaults s).w.seq.markCount = s.w.seq.markCount
      ∧ (clearFaults s).w.seq.slot = s.w.seq.slot ∧ (clearFaults s).w.seq.custodian = s.w.seq.custodian
      ∧ (clearFaults s).w.seq.last = s.w.seq.last ∧ (clearFaults s).w.seq.releaseHold = s.w.seq.releaseHold
      ∧ (clearFaults s).w.seq.restoration = s.w.seq.restoration ∧ (clearFaults s).w.seq.parked = s.w.seq.parked
      ∧ (clearFaults s).w.seq.record = s.w.seq.record ∧ (clearFaults s).w.seq.survey = s.w.seq.survey
      ∧ (clearFaults s).w.seq.motionTimer = s.w.seq.motionTimer ∧ (clearFaults s).w.flt.raised = s.w.flt.raised
      ∧ (clearFaults s).w.flt.atSample = s.w.flt.atSample ∧ (clearFaults s).w.flt.overwind = s.w.flt.overwind
      ∧ (clearFaults s).w.flt.overrun = s.w.flt.overrun ∧ (clearFaults s).w.flt.duplicate = s.w.flt.duplicate
      ∧ (clearFaults s).w.flt.alarmSet = s.w.flt.alarmSet ∧ (clearFaults s).w.flt.tripCause = s.w.flt.tripCause
      ∧ (clearFaults s).w.flt.trip = s.w.flt.trip ∧ (clearFaults s).w.drive = s.w.drive
      ∧ (clearFaults s).w.sampleTimer = s.w.sampleTimer ∧ (clearFaults s).l = s.l ∧ (clearFaults s).k = s.k
      ∧ (clearFaults s).pins = s.pins :=
  ⟨rfl, rfl, rfl, rfl, rfl, rfl, rfl, rfl, rfl, rfl, rfl, rfl, rfl, rfl, rfl, rfl, rfl, rfl, rfl, rfl, rfl, rfl, rfl,
    rfl, rfl, rfl, rfl, rfl, rfl, rfl, rfl, rfl, rfl, rfl, rfl, rfl, rfl, rfl, rfl⟩

@[simp] theorem queueMarker_frame (s : State) (m : QueuedMarker) :
    (queueMarker m s).pending = s.pending ∧ (queueMarker m s).clock = s.clock ∧ (queueMarker m s).step = s.step
      ∧ (queueMarker m s).loader = s.loader ∧ (queueMarker m s).cfg = s.cfg ∧ (queueMarker m s).listen = s.listen
      ∧ (queueMarker m s).line.mode = s.line.mode ∧ (queueMarker m s).line.activity = s.line.activity
      ∧ (queueMarker m s).line.interframe = s.line.interframe
      ∧ (queueMarker m s).line.queue.periodic = s.line.queue.periodic
      ∧ (queueMarker m s).line.queue.alarm = s.line.queue.alarm
      ∧ (queueMarker m s).line.queue.announce = s.line.queue.announce
      ∧ (queueMarker m s).line.queue.announceFirst = s.line.queue.announceFirst
      ∧ (queueMarker m s).line.queue.call = s.line.queue.call
      ∧ (queueMarker m s).line.queue.answer = s.line.queue.answer ∧ (queueMarker m s).line.attempt = s.line.attempt
      ∧ (queueMarker m s).line.heardOwn = s.line.heardOwn
      ∧ (queueMarker m s).line.pendingPeriodic = s.line.pendingPeriodic
      ∧ (queueMarker m s).line.pendingAnnounce = s.line.pendingAnnounce
      ∧ (queueMarker m s).line.rxStart = s.line.rxStart ∧ (queueMarker m s).line.rxMarkers = s.line.rxMarkers
      ∧ (queueMarker m s).line.reportCounter = s.line.reportCounter ∧ (queueMarker m s).line.sent = s.line.sent
      ∧ (queueMarker m s).line.assembly = s.line.assembly ∧ (queueMarker m s).peers = s.peers
      ∧ (queueMarker m s).w = s.w ∧ (queueMarker m s).l = s.l ∧ (queueMarker m s).k = s.k
      ∧ (queueMarker m s).pins = s.pins :=
  ⟨rfl, rfl, rfl, rfl, rfl, rfl, rfl, rfl, rfl, rfl, rfl, rfl, rfl, rfl, rfl, rfl, rfl, rfl, rfl, rfl, rfl, rfl, rfl,
    rfl, rfl, rfl, rfl, rfl, rfl⟩

@[simp] theorem queueCall_frame (s : State) (c : CallFrame) :
    (queueCall c s).pending = s.pending ∧ (queueCall c s).clock = s.clock ∧ (queueCall c s).step = s.step
      ∧ (queueCall c s).loader = s.loader ∧ (queueCall c s).cfg = s.cfg ∧ (queueCall c s).listen = s.listen
      ∧ (queueCall c s).line.mode = s.line.mode ∧ (queueCall c s).line.activity = s.line.activity
      ∧ (queueCall c s).line.interframe = s.line.interframe
      ∧ (queueCall c s).line.queue.periodic = s.line.queue.periodic
      ∧ (queueCall c s).line.queue.alarm = s.line.queue.alarm
      ∧ (queueCall c s).line.queue.announce = s.line.queue.announce
      ∧ (queueCall c s).line.queue.announceFirst = s.line.queue.announceFirst
      ∧ (queueCall c s).line.queue.marker = s.line.queue.marker
      ∧ (queueCall c s).line.queue.answer = s.line.queue.answer ∧ (queueCall c s).line.attempt = s.line.attempt
      ∧ (queueCall c s).line.heardOwn = s.line.heardOwn
      ∧ (queueCall c s).line.pendingPeriodic = s.line.pendingPeriodic
      ∧ (queueCall c s).line.pendingAnnounce = s.line.pendingAnnounce ∧ (queueCall c s).line.rxStart = s.line.rxStart
      ∧ (queueCall c s).line.rxMarkers = s.line.rxMarkers ∧ (queueCall c s).line.reportCounter = s.line.reportCounter
      ∧ (queueCall c s).line.sent = s.line.sent ∧ (queueCall c s).line.assembly = s.line.assembly
      ∧ (queueCall c s).peers = s.peers ∧ (queueCall c s).w = s.w ∧ (queueCall c s).l = s.l ∧ (queueCall c s).k = s.k
      ∧ (queueCall c s).pins = s.pins :=
  ⟨rfl, rfl, rfl, rfl, rfl, rfl, rfl, rfl, rfl, rfl, rfl, rfl, rfl, rfl, rfl, rfl, rfl, rfl, rfl, rfl, rfl, rfl, rfl,
    rfl, rfl, rfl, rfl, rfl, rfl⟩

@[simp] theorem enterLanding_frame (s : State) (x : LandingState) :
    (enterLanding x s).pending = s.pending ∧ (enterLanding x s).clock = s.clock ∧ (enterLanding x s).step = s.step
      ∧ (enterLanding x s).loader = s.loader ∧ (enterLanding x s).cfg = s.cfg ∧ (enterLanding x s).listen = s.listen
      ∧ (enterLanding x s).line = s.line ∧ (enterLanding x s).peers = s.peers ∧ (enterLanding x s).w = s.w
      ∧ (enterLanding x s).k = s.k ∧ (enterLanding x s).pins = s.pins ∧ (enterLanding x s).l.call = s.l.call
      ∧ (enterLanding x s).l.loops = s.l.loops ∧ (enterLanding x s).l.outKey = s.l.outKey
      ∧ (enterLanding x s).l.gateClosed = s.l.gateClosed ∧ (enterLanding x s).l.gateLocked = s.l.gateLocked
      ∧ (enterLanding x s).l.breach = s.l.breach ∧ (enterLanding x s).l.lockFail = s.l.lockFail
      ∧ (enterLanding x s).l.doubt = s.l.doubt ∧ (enterLanding x s).l.flash = s.l.flash
      ∧ (enterLanding x s).l.callTimer = s.l.callTimer ∧ (enterLanding x s).l.lockTimer = s.l.lockTimer
      ∧ (enterLanding x s).l.stateTimer = s.l.stateTimer ∧ (enterLanding x s).l.pendingDispatch = s.l.pendingDispatch :=
  ⟨rfl, rfl, rfl, rfl, rfl, rfl, rfl, rfl, rfl, rfl, rfl, rfl, rfl, rfl, rfl, rfl, rfl, rfl, rfl, rfl, rfl, rfl, rfl,
    rfl⟩

@[simp] theorem flashFor_frame (s : State) (n : Nat) :
    (flashFor n s).pending = s.pending ∧ (flashFor n s).clock = s.clock ∧ (flashFor n s).step = s.step
      ∧ (flashFor n s).loader = s.loader ∧ (flashFor n s).cfg = s.cfg ∧ (flashFor n s).listen = s.listen
      ∧ (flashFor n s).line = s.line ∧ (flashFor n s).peers = s.peers ∧ (flashFor n s).w = s.w
      ∧ (flashFor n s).k = s.k ∧ (flashFor n s).pins = s.pins ∧ (flashFor n s).l.state = s.l.state
      ∧ (flashFor n s).l.release = s.l.release ∧ (flashFor n s).l.call = s.l.call
      ∧ (flashFor n s).l.loops = s.l.loops ∧ (flashFor n s).l.outKey = s.l.outKey
      ∧ (flashFor n s).l.gateClosed = s.l.gateClosed ∧ (flashFor n s).l.gateLocked = s.l.gateLocked
      ∧ (flashFor n s).l.breach = s.l.breach ∧ (flashFor n s).l.lockFail = s.l.lockFail
      ∧ (flashFor n s).l.doubt = s.l.doubt ∧ (flashFor n s).l.callTimer = s.l.callTimer
      ∧ (flashFor n s).l.lockTimer = s.l.lockTimer ∧ (flashFor n s).l.stateTimer = s.l.stateTimer
      ∧ (flashFor n s).l.pendingDispatch = s.l.pendingDispatch :=
  ⟨rfl, rfl, rfl, rfl, rfl, rfl, rfl, rfl, rfl, rfl, rfl, rfl, rfl, rfl, rfl, rfl, rfl, rfl, rfl, rfl, rfl, rfl, rfl,
    rfl, rfl⟩

@[simp] theorem clearLocking_frame (s : State) :
    (clearLocking s).pending = s.pending ∧ (clearLocking s).clock = s.clock ∧ (clearLocking s).step = s.step
      ∧ (clearLocking s).loader = s.loader ∧ (clearLocking s).cfg = s.cfg ∧ (clearLocking s).listen = s.listen
      ∧ (clearLocking s).line = s.line ∧ (clearLocking s).peers = s.peers ∧ (clearLocking s).w = s.w
      ∧ (clearLocking s).k = s.k ∧ (clearLocking s).pins = s.pins ∧ (clearLocking s).l.state = s.l.state
      ∧ (clearLocking s).l.release = s.l.release ∧ (clearLocking s).l.call = s.l.call
      ∧ (clearLocking s).l.loops = s.l.loops ∧ (clearLocking s).l.outKey = s.l.outKey
      ∧ (clearLocking s).l.gateClosed = s.l.gateClosed ∧ (clearLocking s).l.gateLocked = s.l.gateLocked
      ∧ (clearLocking s).l.breach = s.l.breach ∧ (clearLocking s).l.lockFail = s.l.lockFail
      ∧ (clearLocking s).l.doubt = s.l.doubt ∧ (clearLocking s).l.flash = s.l.flash
      ∧ (clearLocking s).l.callTimer = s.l.callTimer ∧ (clearLocking s).l.stateTimer = s.l.stateTimer :=
  ⟨rfl, rfl, rfl, rfl, rfl, rfl, rfl, rfl, rfl, rfl, rfl, rfl, rfl, rfl, rfl, rfl, rfl, rfl, rfl, rfl, rfl, rfl, rfl,
    rfl⟩

@[simp] theorem enterLocking_frame (s : State) (p : Option (Nat × LoadClass)) :
    (enterLocking p s).pending = s.pending ∧ (enterLocking p s).clock = s.clock ∧ (enterLocking p s).step = s.step
      ∧ (enterLocking p s).loader = s.loader ∧ (enterLocking p s).cfg = s.cfg ∧ (enterLocking p s).listen = s.listen
      ∧ (enterLocking p s).line = s.line ∧ (enterLocking p s).peers = s.peers ∧ (enterLocking p s).w = s.w
      ∧ (enterLocking p s).k = s.k ∧ (enterLocking p s).pins = s.pins ∧ (enterLocking p s).l.call = s.l.call
      ∧ (enterLocking p s).l.loops = s.l.loops ∧ (enterLocking p s).l.outKey = s.l.outKey
      ∧ (enterLocking p s).l.gateClosed = s.l.gateClosed ∧ (enterLocking p s).l.gateLocked = s.l.gateLocked
      ∧ (enterLocking p s).l.breach = s.l.breach ∧ (enterLocking p s).l.lockFail = s.l.lockFail
      ∧ (enterLocking p s).l.doubt = s.l.doubt ∧ (enterLocking p s).l.flash = s.l.flash
      ∧ (enterLocking p s).l.callTimer = s.l.callTimer ∧ (enterLocking p s).l.stateTimer = s.l.stateTimer :=
  ⟨rfl, rfl, rfl, rfl, rfl, rfl, rfl, rfl, rfl, rfl, rfl, rfl, rfl, rfl, rfl, rfl, rfl, rfl, rfl, rfl, rfl, rfl⟩

@[simp] theorem dropCall_frame (s : State) :
    (dropCall s).pending = s.pending ∧ (dropCall s).clock = s.clock ∧ (dropCall s).step = s.step
      ∧ (dropCall s).loader = s.loader ∧ (dropCall s).cfg = s.cfg ∧ (dropCall s).listen = s.listen
      ∧ (dropCall s).line = s.line ∧ (dropCall s).peers = s.peers ∧ (dropCall s).w = s.w ∧ (dropCall s).l = s.l
      ∧ (dropCall s).pins = s.pins ∧ (dropCall s).k.state = s.k.state ∧ (dropCall s).k.working = s.k.working
      ∧ (dropCall s).k.mark = s.k.mark ∧ (dropCall s).k.present = s.k.present ∧ (dropCall s).k.closed = s.k.closed
      ∧ (dropCall s).k.complete = s.k.complete ∧ (dropCall s).k.chuteHold = s.k.chuteHold
      ∧ (dropCall s).k.doorHold = s.k.doorHold ∧ (dropCall s).k.doorStuck = s.k.doorStuck
      ∧ (dropCall s).k.skipLost = s.k.skipLost ∧ (dropCall s).k.unready = s.k.unready
      ∧ (dropCall s).k.stateTimer = s.k.stateTimer ∧ (dropCall s).k.dumpTimer = s.k.dumpTimer
      ∧ (dropCall s).k.loadPermit = s.k.loadPermit :=
  ⟨rfl, rfl, rfl, rfl, rfl, rfl, rfl, rfl, rfl, rfl, rfl, rfl, rfl, rfl, rfl, rfl, rfl, rfl, rfl, rfl, rfl, rfl, rfl,
    rfl, rfl⟩

@[simp] theorem enterNoSkip_frame (s : State) :
    (enterNoSkip s).pending = s.pending ∧ (enterNoSkip s).clock = s.clock ∧ (enterNoSkip s).step = s.step
      ∧ (enterNoSkip s).loader = s.loader ∧ (enterNoSkip s).cfg = s.cfg ∧ (enterNoSkip s).listen = s.listen
      ∧ (enterNoSkip s).line = s.line ∧ (enterNoSkip s).peers = s.peers ∧ (enterNoSkip s).w = s.w
      ∧ (enterNoSkip s).l = s.l ∧ (enterNoSkip s).pins = s.pins ∧ (enterNoSkip s).k.posted = s.k.posted
      ∧ (enterNoSkip s).k.mark = s.k.mark ∧ (enterNoSkip s).k.present = s.k.present
      ∧ (enterNoSkip s).k.closed = s.k.closed ∧ (enterNoSkip s).k.complete = s.k.complete
      ∧ (enterNoSkip s).k.chuteHold = s.k.chuteHold ∧ (enterNoSkip s).k.doorHold = s.k.doorHold
      ∧ (enterNoSkip s).k.doorStuck = s.k.doorStuck ∧ (enterNoSkip s).k.skipLost = s.k.skipLost
      ∧ (enterNoSkip s).k.unready = s.k.unready ∧ (enterNoSkip s).k.call = s.k.call
      ∧ (enterNoSkip s).k.callTimer = s.k.callTimer ∧ (enterNoSkip s).k.stateTimer = s.k.stateTimer
      ∧ (enterNoSkip s).k.loadPermit = s.k.loadPermit :=
  ⟨rfl, rfl, rfl, rfl, rfl, rfl, rfl, rfl, rfl, rfl, rfl, rfl, rfl, rfl, rfl, rfl, rfl, rfl, rfl, rfl, rfl, rfl, rfl,
    rfl, rfl⟩

@[simp] theorem enterDumping_frame (s : State) :
    (enterDumping s).pending = s.pending ∧ (enterDumping s).clock = s.clock ∧ (enterDumping s).step = s.step
      ∧ (enterDumping s).loader = s.loader ∧ (enterDumping s).cfg = s.cfg ∧ (enterDumping s).listen = s.listen
      ∧ (enterDumping s).line = s.line ∧ (enterDumping s).peers = s.peers ∧ (enterDumping s).w = s.w
      ∧ (enterDumping s).l = s.l ∧ (enterDumping s).pins = s.pins ∧ (enterDumping s).k.working = s.k.working
      ∧ (enterDumping s).k.posted = s.k.posted ∧ (enterDumping s).k.mark = s.k.mark
      ∧ (enterDumping s).k.present = s.k.present ∧ (enterDumping s).k.closed = s.k.closed
      ∧ (enterDumping s).k.complete = s.k.complete ∧ (enterDumping s).k.chuteHold = s.k.chuteHold
      ∧ (enterDumping s).k.doorHold = s.k.doorHold ∧ (enterDumping s).k.doorStuck = s.k.doorStuck
      ∧ (enterDumping s).k.skipLost = s.k.skipLost ∧ (enterDumping s).k.unready = s.k.unready
      ∧ (enterDumping s).k.call = s.k.call ∧ (enterDumping s).k.callTimer = s.k.callTimer
      ∧ (enterDumping s).k.stateTimer = s.k.stateTimer ∧ (enterDumping s).k.loadPermit = s.k.loadPermit :=
  ⟨rfl, rfl, rfl, rfl, rfl, rfl, rfl, rfl, rfl, rfl, rfl, rfl, rfl, rfl, rfl, rfl, rfl, rfl, rfl, rfl, rfl, rfl, rfl,
    rfl, rfl, rfl⟩

@[simp] theorem setReady_frame (s : State) (x : ReadyStatus) (q : Option Nat) :
    (setReady x q s).pending = s.pending ∧ (setReady x q s).clock = s.clock ∧ (setReady x q s).step = s.step
      ∧ (setReady x q s).loader = s.loader ∧ (setReady x q s).cfg = s.cfg ∧ (setReady x q s).listen = s.listen
      ∧ (setReady x q s).line = s.line ∧ (setReady x q s).peers = s.peers ∧ (setReady x q s).w = s.w
      ∧ (setReady x q s).l = s.l ∧ (setReady x q s).pins = s.pins ∧ (setReady x q s).k.state = s.k.state
      ∧ (setReady x q s).k.working = s.k.working ∧ (setReady x q s).k.posted = s.k.posted
      ∧ (setReady x q s).k.mark = s.k.mark ∧ (setReady x q s).k.present = s.k.present
      ∧ (setReady x q s).k.closed = s.k.closed ∧ (setReady x q s).k.complete = s.k.complete
      ∧ (setReady x q s).k.chuteHold = s.k.chuteHold ∧ (setReady x q s).k.doorHold = s.k.doorHold
      ∧ (setReady x q s).k.doorStuck = s.k.doorStuck ∧ (setReady x q s).k.skipLost = s.k.skipLost
      ∧ (setReady x q s).k.unready = s.k.unready ∧ (setReady x q s).k.callTimer = s.k.callTimer
      ∧ (setReady x q s).k.stateTimer = s.k.stateTimer ∧ (setReady x q s).k.dumpTimer = s.k.dumpTimer
      ∧ (setReady x q s).k.loadPermit = s.k.loadPermit :=
  ⟨rfl, rfl, rfl, rfl, rfl, rfl, rfl, rfl, rfl, rfl, rfl, rfl, rfl, rfl, rfl, rfl, rfl, rfl, rfl, rfl, rfl, rfl, rfl,
    rfl, rfl, rfl, rfl⟩

@[simp] theorem enterReady_frame (s : State) (q : Nat) :
    (enterReady q s).pending = s.pending ∧ (enterReady q s).clock = s.clock ∧ (enterReady q s).step = s.step
      ∧ (enterReady q s).loader = s.loader ∧ (enterReady q s).cfg = s.cfg ∧ (enterReady q s).listen = s.listen
      ∧ (enterReady q s).line = s.line ∧ (enterReady q s).peers = s.peers ∧ (enterReady q s).w = s.w
      ∧ (enterReady q s).l = s.l ∧ (enterReady q s).pins = s.pins ∧ (enterReady q s).k.working = s.k.working
      ∧ (enterReady q s).k.posted = s.k.posted ∧ (enterReady q s).k.mark = s.k.mark
      ∧ (enterReady q s).k.present = s.k.present ∧ (enterReady q s).k.closed = s.k.closed
      ∧ (enterReady q s).k.complete = s.k.complete ∧ (enterReady q s).k.chuteHold = s.k.chuteHold
      ∧ (enterReady q s).k.doorHold = s.k.doorHold ∧ (enterReady q s).k.doorStuck = s.k.doorStuck
      ∧ (enterReady q s).k.skipLost = s.k.skipLost ∧ (enterReady q s).k.unready = s.k.unready
      ∧ (enterReady q s).k.stateTimer = s.k.stateTimer ∧ (enterReady q s).k.dumpTimer = s.k.dumpTimer
      ∧ (enterReady q s).k.loadPermit = s.k.loadPermit :=
  ⟨rfl, rfl, rfl, rfl, rfl, rfl, rfl, rfl, rfl, rfl, rfl, rfl, rfl, rfl, rfl, rfl, rfl, rfl, rfl, rfl, rfl, rfl, rfl,
    rfl, rfl⟩

@[simp] theorem permitLoad_frame (s : State) :
    (permitLoad s).pending = s.pending ∧ (permitLoad s).clock = s.clock ∧ (permitLoad s).step = s.step
      ∧ (permitLoad s).loader = s.loader ∧ (permitLoad s).cfg = s.cfg ∧ (permitLoad s).listen = s.listen
      ∧ (permitLoad s).line = s.line ∧ (permitLoad s).peers = s.peers ∧ (permitLoad s).w = s.w
      ∧ (permitLoad s).l = s.l ∧ (permitLoad s).pins = s.pins ∧ (permitLoad s).k.state = s.k.state
      ∧ (permitLoad s).k.working = s.k.working ∧ (permitLoad s).k.posted = s.k.posted
      ∧ (permitLoad s).k.mark = s.k.mark ∧ (permitLoad s).k.present = s.k.present
      ∧ (permitLoad s).k.closed = s.k.closed ∧ (permitLoad s).k.complete = s.k.complete
      ∧ (permitLoad s).k.chuteHold = s.k.chuteHold ∧ (permitLoad s).k.doorHold = s.k.doorHold
      ∧ (permitLoad s).k.doorStuck = s.k.doorStuck ∧ (permitLoad s).k.skipLost = s.k.skipLost
      ∧ (permitLoad s).k.unready = s.k.unready ∧ (permitLoad s).k.call = s.k.call
      ∧ (permitLoad s).k.callTimer = s.k.callTimer ∧ (permitLoad s).k.stateTimer = s.k.stateTimer
      ∧ (permitLoad s).k.dumpTimer = s.k.dumpTimer :=
  ⟨rfl, rfl, rfl, rfl, rfl, rfl, rfl, rfl, rfl, rfl, rfl, rfl, rfl, rfl, rfl, rfl, rfl, rfl, rfl, rfl, rfl, rfl, rfl,
    rfl, rfl, rfl, rfl⟩

@[simp] theorem startSkip_frame (s : State) :
    (startSkip s).pending = s.pending ∧ (startSkip s).clock = s.clock ∧ (startSkip s).step = s.step
      ∧ (startSkip s).loader = s.loader ∧ (startSkip s).cfg = s.cfg ∧ (startSkip s).listen = s.listen
      ∧ (startSkip s).line = s.line ∧ (startSkip s).peers = s.peers ∧ (startSkip s).w = s.w ∧ (startSkip s).l = s.l
      ∧ (startSkip s).pins = s.pins ∧ (startSkip s).k.working = s.k.working ∧ (startSkip s).k.posted = s.k.posted
      ∧ (startSkip s).k.mark = s.k.mark ∧ (startSkip s).k.present = s.k.present ∧ (startSkip s).k.closed = s.k.closed
      ∧ (startSkip s).k.complete = s.k.complete ∧ (startSkip s).k.doorStuck = s.k.doorStuck
      ∧ (startSkip s).k.skipLost = s.k.skipLost ∧ (startSkip s).k.unready = s.k.unready
      ∧ (startSkip s).k.call = s.k.call ∧ (startSkip s).k.callTimer = s.k.callTimer
      ∧ (startSkip s).k.stateTimer = s.k.stateTimer ∧ (startSkip s).k.dumpTimer = s.k.dumpTimer
      ∧ (startSkip s).k.loadPermit = s.k.loadPermit :=
  ⟨rfl, rfl, rfl, rfl, rfl, rfl, rfl, rfl, rfl, rfl, rfl, rfl, rfl, rfl, rfl, rfl, rfl, rfl, rfl, rfl, rfl, rfl, rfl,
    rfl, rfl⟩

@[simp] theorem clearFlags_frame (s : State) :
    (clearFlags s).pending = s.pending ∧ (clearFlags s).clock = s.clock ∧ (clearFlags s).step = s.step
      ∧ (clearFlags s).loader = s.loader ∧ (clearFlags s).cfg = s.cfg ∧ (clearFlags s).listen = s.listen
      ∧ (clearFlags s).line = s.line ∧ (clearFlags s).peers = s.peers ∧ (clearFlags s).w = s.w
      ∧ (clearFlags s).l = s.l ∧ (clearFlags s).pins = s.pins ∧ (clearFlags s).k.state = s.k.state
      ∧ (clearFlags s).k.working = s.k.working ∧ (clearFlags s).k.posted = s.k.posted
      ∧ (clearFlags s).k.mark = s.k.mark ∧ (clearFlags s).k.present = s.k.present
      ∧ (clearFlags s).k.closed = s.k.closed ∧ (clearFlags s).k.complete = s.k.complete
      ∧ (clearFlags s).k.call = s.k.call ∧ (clearFlags s).k.callTimer = s.k.callTimer
      ∧ (clearFlags s).k.stateTimer = s.k.stateTimer ∧ (clearFlags s).k.dumpTimer = s.k.dumpTimer
      ∧ (clearFlags s).k.loadPermit = s.k.loadPermit :=
  ⟨rfl, rfl, rfl, rfl, rfl, rfl, rfl, rfl, rfl, rfl, rfl, rfl, rfl, rfl, rfl, rfl, rfl, rfl, rfl, rfl, rfl, rfl, rfl⟩

@[simp] theorem raiseDuplicate_frame (s : State) :
    (raiseDuplicate s).pending = s.pending ∧ (raiseDuplicate s).clock = s.clock ∧ (raiseDuplicate s).step = s.step
      ∧ (raiseDuplicate s).loader = s.loader ∧ (raiseDuplicate s).cfg = s.cfg ∧ (raiseDuplicate s).listen = s.listen
      ∧ (raiseDuplicate s).line = s.line ∧ (raiseDuplicate s).peers = s.peers ∧ (raiseDuplicate s).w.tr = s.w.tr
      ∧ (raiseDuplicate s).w.env = s.w.env ∧ (raiseDuplicate s).w.seq = s.w.seq
      ∧ (raiseDuplicate s).w.flt.raised = s.w.flt.raised ∧ (raiseDuplicate s).w.flt.atSample = s.w.flt.atSample
      ∧ (raiseDuplicate s).w.flt.overwind = s.w.flt.overwind ∧ (raiseDuplicate s).w.flt.overrun = s.w.flt.overrun
      ∧ (raiseDuplicate s).w.flt.powerUpTrip = s.w.flt.powerUpTrip
      ∧ (raiseDuplicate s).w.flt.alarmSet = s.w.flt.alarmSet ∧ (raiseDuplicate s).w.panel = s.w.panel
      ∧ (raiseDuplicate s).w.drive = s.w.drive ∧ (raiseDuplicate s).w.sampleTimer = s.w.sampleTimer
      ∧ (raiseDuplicate s).l = s.l ∧ (raiseDuplicate s).k = s.k ∧ (raiseDuplicate s).pins = s.pins :=
  ⟨rfl, rfl, rfl, rfl, rfl, rfl, rfl, rfl, rfl, rfl, rfl, rfl, rfl, rfl, rfl, rfl, rfl, rfl, rfl, rfl, rfl, rfl, rfl⟩

@[simp] theorem enterAlarm_frame (s : State) (n : Nat) :
    (enterAlarm n s).pending = s.pending ∧ (enterAlarm n s).clock = s.clock ∧ (enterAlarm n s).step = s.step
      ∧ (enterAlarm n s).loader = s.loader ∧ (enterAlarm n s).cfg = s.cfg ∧ (enterAlarm n s).listen = s.listen
      ∧ (enterAlarm n s).line = s.line ∧ (enterAlarm n s).peers = s.peers ∧ (enterAlarm n s).w.tr = s.w.tr
      ∧ (enterAlarm n s).w.env = s.w.env ∧ (enterAlarm n s).w.seq = s.w.seq
      ∧ (enterAlarm n s).w.flt.kinds = s.w.flt.kinds ∧ (enterAlarm n s).w.flt.raised = s.w.flt.raised
      ∧ (enterAlarm n s).w.flt.atSample = s.w.flt.atSample ∧ (enterAlarm n s).w.flt.overwind = s.w.flt.overwind
      ∧ (enterAlarm n s).w.flt.overrun = s.w.flt.overrun ∧ (enterAlarm n s).w.flt.duplicate = s.w.flt.duplicate
      ∧ (enterAlarm n s).w.flt.powerUpTrip = s.w.flt.powerUpTrip
      ∧ (enterAlarm n s).w.flt.tripCause = s.w.flt.tripCause ∧ (enterAlarm n s).w.flt.trip = s.w.flt.trip
      ∧ (enterAlarm n s).w.panel = s.w.panel ∧ (enterAlarm n s).w.drive = s.w.drive
      ∧ (enterAlarm n s).w.sampleTimer = s.w.sampleTimer ∧ (enterAlarm n s).l = s.l ∧ (enterAlarm n s).k = s.k
      ∧ (enterAlarm n s).pins = s.pins :=
  ⟨rfl, rfl, rfl, rfl, rfl, rfl, rfl, rfl, rfl, rfl, rfl, rfl, rfl, rfl, rfl, rfl, rfl, rfl, rfl, rfl, rfl, rfl, rfl,
    rfl, rfl, rfl⟩

@[simp] theorem leaveAlarm_frame (s : State) (n : Nat) :
    (leaveAlarm n s).pending = s.pending ∧ (leaveAlarm n s).clock = s.clock ∧ (leaveAlarm n s).step = s.step
      ∧ (leaveAlarm n s).loader = s.loader ∧ (leaveAlarm n s).cfg = s.cfg ∧ (leaveAlarm n s).listen = s.listen
      ∧ (leaveAlarm n s).line = s.line ∧ (leaveAlarm n s).peers = s.peers ∧ (leaveAlarm n s).w.tr = s.w.tr
      ∧ (leaveAlarm n s).w.env = s.w.env ∧ (leaveAlarm n s).w.seq = s.w.seq
      ∧ (leaveAlarm n s).w.flt.kinds = s.w.flt.kinds ∧ (leaveAlarm n s).w.flt.raised = s.w.flt.raised
      ∧ (leaveAlarm n s).w.flt.atSample = s.w.flt.atSample ∧ (leaveAlarm n s).w.flt.overwind = s.w.flt.overwind
      ∧ (leaveAlarm n s).w.flt.overrun = s.w.flt.overrun ∧ (leaveAlarm n s).w.flt.duplicate = s.w.flt.duplicate
      ∧ (leaveAlarm n s).w.flt.powerUpTrip = s.w.flt.powerUpTrip
      ∧ (leaveAlarm n s).w.flt.tripCause = s.w.flt.tripCause ∧ (leaveAlarm n s).w.flt.trip = s.w.flt.trip
      ∧ (leaveAlarm n s).w.panel = s.w.panel ∧ (leaveAlarm n s).w.drive = s.w.drive
      ∧ (leaveAlarm n s).w.sampleTimer = s.w.sampleTimer ∧ (leaveAlarm n s).l = s.l ∧ (leaveAlarm n s).k = s.k
      ∧ (leaveAlarm n s).pins = s.pins :=
  ⟨rfl, rfl, rfl, rfl, rfl, rfl, rfl, rfl, rfl, rfl, rfl, rfl, rfl, rfl, rfl, rfl, rfl, rfl, rfl, rfl, rfl, rfl, rfl,
    rfl, rfl, rfl⟩

@[simp] theorem takeRaised_frame (s : State) :
    (takeRaised s).pending = s.pending ∧ (takeRaised s).clock = s.clock ∧ (takeRaised s).step = s.step
      ∧ (takeRaised s).loader = s.loader ∧ (takeRaised s).cfg = s.cfg ∧ (takeRaised s).listen = s.listen
      ∧ (takeRaised s).line = s.line ∧ (takeRaised s).peers = s.peers ∧ (takeRaised s).w.tr = s.w.tr
      ∧ (takeRaised s).w.env = s.w.env ∧ (takeRaised s).w.seq = s.w.seq ∧ (takeRaised s).w.flt.kinds = s.w.flt.kinds
      ∧ (takeRaised s).w.flt.overwind = s.w.flt.overwind ∧ (takeRaised s).w.flt.overrun = s.w.flt.overrun
      ∧ (takeRaised s).w.flt.duplicate = s.w.flt.duplicate ∧ (takeRaised s).w.flt.powerUpTrip = s.w.flt.powerUpTrip
      ∧ (takeRaised s).w.flt.alarmSet = s.w.flt.alarmSet ∧ (takeRaised s).w.flt.tripCause = s.w.flt.tripCause
      ∧ (takeRaised s).w.flt.trip = s.w.flt.trip ∧ (takeRaised s).w.panel = s.w.panel
      ∧ (takeRaised s).w.drive = s.w.drive ∧ (takeRaised s).w.sampleTimer = s.w.sampleTimer ∧ (takeRaised s).l = s.l
      ∧ (takeRaised s).k = s.k ∧ (takeRaised s).pins = s.pins :=
  ⟨rfl, rfl, rfl, rfl, rfl, rfl, rfl, rfl, rfl, rfl, rfl, rfl, rfl, rfl, rfl, rfl, rfl, rfl, rfl, rfl, rfl, rfl, rfl,
    rfl, rfl⟩

@[simp] theorem setPresent_frame (s : State) (w : Which) (b : Bool) :
    (setPresent w b s).pending = s.pending ∧ (setPresent w b s).clock = s.clock ∧ (setPresent w b s).step = s.step
      ∧ (setPresent w b s).loader = s.loader ∧ (setPresent w b s).cfg = s.cfg ∧ (setPresent w b s).listen = s.listen
      ∧ (setPresent w b s).line = s.line ∧ (setPresent w b s).peers = s.peers ∧ (setPresent w b s).w = s.w
      ∧ (setPresent w b s).l = s.l ∧ (setPresent w b s).pins = s.pins ∧ (setPresent w b s).k.state = s.k.state
      ∧ (setPresent w b s).k.working = s.k.working ∧ (setPresent w b s).k.posted = s.k.posted
      ∧ (setPresent w b s).k.mark = s.k.mark ∧ (setPresent w b s).k.closed = s.k.closed
      ∧ (setPresent w b s).k.complete = s.k.complete ∧ (setPresent w b s).k.chuteHold = s.k.chuteHold
      ∧ (setPresent w b s).k.doorHold = s.k.doorHold ∧ (setPresent w b s).k.doorStuck = s.k.doorStuck
      ∧ (setPresent w b s).k.skipLost = s.k.skipLost ∧ (setPresent w b s).k.unready = s.k.unready
      ∧ (setPresent w b s).k.call = s.k.call ∧ (setPresent w b s).k.callTimer = s.k.callTimer
      ∧ (setPresent w b s).k.stateTimer = s.k.stateTimer ∧ (setPresent w b s).k.dumpTimer = s.k.dumpTimer
      ∧ (setPresent w b s).k.loadPermit = s.k.loadPermit :=
  ⟨rfl, rfl, rfl, rfl, rfl, rfl, rfl, rfl, rfl, rfl, rfl, rfl, rfl, rfl, rfl, rfl, rfl, rfl, rfl, rfl, rfl, rfl, rfl,
    rfl, rfl, rfl, rfl⟩

@[simp] theorem setLoop_frame (s : State) (w : Which) (m : MarkerLoop) :
    (setLoop w m s).pending = s.pending ∧ (setLoop w m s).clock = s.clock ∧ (setLoop w m s).step = s.step
      ∧ (setLoop w m s).loader = s.loader ∧ (setLoop w m s).cfg = s.cfg ∧ (setLoop w m s).listen = s.listen
      ∧ (setLoop w m s).line = s.line ∧ (setLoop w m s).peers = s.peers ∧ (setLoop w m s).w = s.w
      ∧ (setLoop w m s).k = s.k ∧ (setLoop w m s).pins = s.pins ∧ (setLoop w m s).l.state = s.l.state
      ∧ (setLoop w m s).l.release = s.l.release ∧ (setLoop w m s).l.call = s.l.call
      ∧ (setLoop w m s).l.outKey = s.l.outKey ∧ (setLoop w m s).l.gateClosed = s.l.gateClosed
      ∧ (setLoop w m s).l.gateLocked = s.l.gateLocked ∧ (setLoop w m s).l.breach = s.l.breach
      ∧ (setLoop w m s).l.lockFail = s.l.lockFail ∧ (setLoop w m s).l.doubt = s.l.doubt
      ∧ (setLoop w m s).l.flash = s.l.flash ∧ (setLoop w m s).l.callTimer = s.l.callTimer
      ∧ (setLoop w m s).l.lockTimer = s.l.lockTimer ∧ (setLoop w m s).l.stateTimer = s.l.stateTimer
      ∧ (setLoop w m s).l.pendingDispatch = s.l.pendingDispatch :=
  ⟨rfl, rfl, rfl, rfl, rfl, rfl, rfl, rfl, rfl, rfl, rfl, rfl, rfl, rfl, rfl, rfl, rfl, rfl, rfl, rfl, rfl, rfl, rfl,
    rfl, rfl⟩

@[simp] theorem showPins_frame (s : State) :
    (showPins s).pending = s.pending ∧ (showPins s).clock = s.clock ∧ (showPins s).step = s.step
      ∧ (showPins s).loader = s.loader ∧ (showPins s).cfg = s.cfg ∧ (showPins s).listen = s.listen
      ∧ (showPins s).line = s.line ∧ (showPins s).peers = s.peers ∧ (showPins s).w = s.w ∧ (showPins s).l = s.l
      ∧ (showPins s).k = s.k :=
  ⟨rfl, rfl, rfl, rfl, rfl, rfl, rfl, rfl, rfl, rfl, rfl⟩

/-! ## What an update writes -/

@[simp] theorem computeTrack_sample (s : State) :
    (computeTrack s).w.tr.nSample = s.w.tr.n ∧ (computeTrack s).w.tr.clsSample = s.w.tr.cls := ⟨rfl, rfl⟩

@[simp] theorem formCeiling_applied (s : State) : (formCeiling s).w.env.applied = restrictionsAt s := rfl

@[simp] theorem setPeer_peers (p : Peer) (s : State) : (setPeer p s).peers = putPeer p s.peers := rfl

@[simp] theorem raiseEvent_raised (k : FaultKind) (s : State) :
    (raiseEvent k s).w.flt.raised = s.w.flt.raised.set k true := rfl

@[simp] theorem zeroReference_env (s : State) :
    (zeroReference s).w.env.refSpeed = 0 ∧ (zeroReference s).w.env.refDir = .none := ⟨rfl, rfl⟩

@[simp] theorem setReference_env (s : State) :
    (setReference s).w.env.refSpeed = (referenceOf s).1 ∧ (setReference s).w.env.refDir = (referenceOf s).2
      ∧ (setReference s).w.env.shownSpeed = (referenceOf s).1 ∧ (setReference s).w.env.shownDir = (referenceOf s).2 :=
  ⟨rfl, rfl, rfl, rfl⟩

@[simp] theorem zeroReference_shown (s : State) :
    (zeroReference s).w.env.shownSpeed = s.w.env.shownSpeed ∧ (zeroReference s).w.env.shownDir = s.w.env.shownDir :=
  ⟨rfl, rfl⟩

@[simp] theorem latchAt_shown (s : State) :
    (latchAt s).w.env.shownSpeed = s.w.env.shownSpeed ∧ (latchAt s).w.env.shownDir = s.w.env.shownDir := ⟨rfl, rfl⟩

@[simp] theorem formCeiling_shown (s : State) :
    (formCeiling s).w.env.shownSpeed = s.w.env.shownSpeed ∧ (formCeiling s).w.env.shownDir = s.w.env.shownDir :=
  ⟨rfl, rfl⟩

@[simp] theorem setWind_shown (w : WindState) (s : State) :
    (setWind w s).w.env.shownSpeed = s.w.env.shownSpeed ∧ (setWind w s).w.env.shownDir = s.w.env.shownDir :=
  ⟨rfl, rfl⟩

@[simp] theorem prepare_shown (g : Leg) (cs : List Call) (s : State) :
    (prepare g cs s).w.env.shownSpeed = s.w.env.shownSpeed ∧ (prepare g cs s).w.env.shownDir = s.w.env.shownDir :=
  ⟨rfl, rfl⟩

@[simp] theorem enterStopping_shown (c : Cause) (s : State) :
    (enterStopping c s).w.env.shownSpeed = s.w.env.shownSpeed ∧ (enterStopping c s).w.env.shownDir = s.w.env.shownDir :=
  ⟨rfl, rfl⟩

@[simp] theorem raiseInspection_shown (d : Dir) (s : State) :
    (raiseInspection d s).w.env.shownSpeed = s.w.env.shownSpeed
      ∧ (raiseInspection d s).w.env.shownDir = s.w.env.shownDir := ⟨rfl, rfl⟩

@[simp] theorem removeEntry_list (c : Call) (s : State) :
    (removeEntry c s).w.seq.list = s.w.seq.list.filter fun e => !(e.seq == c.seq && sameCall e c) := rfl

@[simp] theorem setPair_pair (c l : Option Nat) (s : State) :
    (setPair c l s).w.seq.custodian = c ∧ (setPair c l s).w.seq.last = l
      ∧ (setPair c l s).w.seq.releaseHold = (if l.isSome then s.w.seq.releaseHold else none) := ⟨rfl, rfl, rfl⟩

@[simp] theorem addEntry_list (c : Call) (s : State) :
    (addEntry c s).w.seq.list = s.w.seq.list ++ [c] ∧ (addEntry c s).w.seq.seqCounter = nextSeq s.w.seq.seqCounter :=
  ⟨rfl, rfl⟩

@[simp] theorem setWind_wind (w : WindState) (s : State) :
    (setWind w s).w.seq.wind = w ∧ (setWind w s).w.seq.leg = (if keepsLeg w then s.w.seq.leg else none)
      ∧ (setWind w s).w.seq.startTimer = none ∧ (setWind w s).w.seq.completionWait = none
      ∧ (setWind w s).w.seq.haltZero = none ∧ (setWind w s).w.env.completion = false :=
  ⟨rfl, rfl, rfl, rfl, rfl, rfl⟩

@[simp] theorem prepare_seq (g : Leg) (cs : List Call) (s : State) :
    (prepare g cs s).w.seq.wind = .preparing ∧ (prepare g cs s).w.seq.leg = some g
      ∧ (prepare g cs s).w.seq.slot = cs ∧ (prepare g cs s).w.seq.permit = true
      ∧ (prepare g cs s).w.seq.startTimer = some (startWindow s) := ⟨rfl, rfl, rfl, rfl, rfl⟩

@[simp] theorem sendTelegram_drive (s : State) :
    (sendTelegram s).w.drive.telegram = telegramBytes s
      ∧ (sendTelegram s).w.drive.counter = s.w.drive.counter + 1
      ∧ (sendTelegram s).w.drive.timer = s.w.drive.timer := ⟨rfl, rfl, rfl⟩

@[simp] theorem showRefusal_refusal (x : RefusalShown) (s : State) : (showRefusal x s).w.panel.refusal = x := rfl

@[simp] theorem queueMarker_marker (m : QueuedMarker) (s : State) :
    (queueMarker m s).line.queue.marker = pushBounded Config.markerDepth (onLine .marker s) m s.line.queue.marker :=
  rfl

@[simp] theorem queueCall_call (c : CallFrame) (s : State) :
    (queueCall c s).line.queue.call = pushBounded Config.callDepth (onLine .call s) c s.line.queue.call := rfl

@[simp] theorem enterLanding_state (x : LandingState) (s : State) :
    (enterLanding x s).l.state = x ∧ (enterLanding x s).l.release = (x == .custody) := ⟨rfl, rfl⟩

@[simp] theorem enterNoSkip_state (s : State) :
    (enterNoSkip s).k.state = .noSkip ∧ (enterNoSkip s).k.working = none ∧ (enterNoSkip s).k.dumpTimer = none :=
  ⟨rfl, rfl, rfl⟩

@[simp] theorem dropCall_call (s : State) :
    (dropCall s).k.posted = false ∧ (dropCall s).k.call = none ∧ (dropCall s).k.callTimer = none := ⟨rfl, rfl, rfl⟩

@[simp] theorem showPins_pins (s : State) : (showPins s).pins = pinsOf s := rfl

end Sys2Proof.Machine
end

