-- ==== Sys2Proof/Tests/Slice0.lean ====
section
/-! SUPPORT. The model's own tests: terms that well-formedness refuses, the manual's worked cases, a state that meets
the hypotheses of each statement in Certificates/Slice0/Obligations.lean, and a small test of each family. -/

namespace Sys2Proof.Tests

open Sys2Proof
open Sys2Proof.Machine

/-! ## The nodes of the tests: a service winder, its landings, a loader and a tipper of a rock winder -/

/-- The layer table of the first worked case of chapter 1, for both conveyances. -/
def layers : List Layer := [⟨40, 17600000⟩, ⟨40, 17350000⟩, ⟨40, 17100000⟩, ⟨40, 16850000⟩, ⟨40, 16600000⟩]

/-- The conveyance of the worked cases. -/
def convCfg (r : Int) : ConvConfig :=
  { r := r, h := 55000, z := -28000, g := 400, upper := -5000, lower := 3050000, layers := layers }

/-- The service winder of the worked cases of chapters 1 and 2. -/
def winderCfg : WinderConfig :=
  { kind := .service, comps := ⟨1, 2⟩, senseA := 1, countsPerRev := 16384, conv := ⟨convCfg 0, convCfg 2000000⟩
    classes := [⟨0, 14000⟩, ⟨2000, 12000⟩, ⟨5000, 12000⟩, ⟨0, 0⟩, ⟨2000, 16000⟩], maximum := 16000, aAcc := 700
    aRet := 900, creep := 400, creepDist := 2000, tol := 50, tolPct := 8, tolFloor := 300, relevelWindow := 500
    inspection := 1000, survey := 800, markerWindow := 500, correctionLimit := 2000, surveyWindow := 1000
    surveyStartWindow := 300, passWindow := 0, passSpeed := 3000, startWindow := 3
    reactions := Config.defaultReactions }

/-- A node of a role with a number. -/
def nodeCfg (r : Role) (n : Nat) (w : WinderConfig) (p : PointConfig) : NodeConfig :=
  { role := r, node := n, fast := false, stateInterval := 10, silenceTimeout := 30, callTimeout := 50, w := w, p := p }

/-- A node in Running. -/
def running (c : NodeConfig) : State :=
  { State.reset with
    step := .run, cfg := some c, loader.reading := false, line.mode := .active, line.activity := .idle
    w.panel.selector := .normal, w.flt.powerUpTrip := false, w.flt.trip := false, w.sampleTimer := some 2 }

/-- The winder, node 1, in a wind state, with TRIP released and no peer heard. -/
def winder (w : WindState) : State :=
  { running (nodeCfg .winder 1 winderCfg Config.noPoint) with w.seq.wind := w }

/-- A landing's STATE with its gates closed and locked, nothing held. -/
def landingState (level : Nat) : LandingReport :=
  { level := level, state := .noCage, gate := .closedLocked, stopHold := false, work := false, outOfService := false
    alarm := false, breach := false, lockFail := false, mask := 0
    first := { comp := 1, custody := .none, fitted := true, present := false, doubt := false }, second := none }

/-- A landing's geometry in compartment 1. -/
def geometry (level : Nat) (stop : Int) : Geometry :=
  { point := .landing level, comp := 1, hasLanding := true, servesMen := true, fitted := true, stop := stop
    down := stop, up := stop, half := 30, zoneSpeed := 20 }

/-- A landing as the winder has heard it. -/
def landingPeer (n level : Nat) (stop : Int) : Peer :=
  { node := n, heard := .present, conflict := false, role := .point (.landing level), geometry := [geometry level stop]
    fitted := [(1, true)], snapshot := some (.state (.landing (landingState level))), silence := some 3000 }

/-- The four landings of the worked survey, nodes 5 to 8. -/
def shaft : List Peer :=
  [landingPeer 5 0 1200, landingPeer 6 8 742240, landingPeer 7 16 1513380, landingPeer 8 24 2206410]

/-- A learned entry valued at one depth. -/
def learnedAt (n : Nat) (stop : Int) : Learned := { node := n, down := stop, up := stop, stop := stop }

/-- The winder surveyed in its shaft, A at a depth with a direction of travel in its history. -/
def surveyed (w : WindState) (x : Int) : State :=
  { winder w with
    peers := shaft
    w.tr.origin := some { n0 := 0, q := ⟨0, 0⟩ }, w.tr.x := ⟨some x, some (2300000 - x)⟩, w.tr.validated := true
    w.tr.learned := ⟨[learnedAt 5 1200, learnedAt 6 742240, learnedAt 7 1513380, learnedAt 8 2206410], []⟩
    w.tr.history := List.replicate 128 ⟨some ⟨x, 2300000 - x⟩, ⟨.down, .up⟩⟩
    w.tr.cls := ⟨.empty, .fixed⟩ }

/-- A fetch from level 8. -/
def fetch8 : Call :=
  { kind := .fetch, origin := 6, level := 8, comp := 0, dest := none, cls := none, seq := 7, mark := none }

/-- A fetch from level 0. -/
def fetch0 : Call := { fetch8 with origin := 5, level := 0, seq := 8 }

/-- A leg down to level 8. -/
def leg8 (k : LegKind) : Leg := { kind := k, dir := .down, target := ⟨some 742240, none⟩, need := none }

/-- The winder under way to level 8. -/
def underWay (w : WindState) : State :=
  { surveyed w 500000 with
    w.seq.leg := some (leg8 .call), w.seq.slot := [fetch8], w.seq.permit := true, w.panel.driveRunning := some true
    w.env.ceiling := 12000, w.env.refSpeed := 12000, w.env.refDir := .down, w.env.phase := .full }

/-- A MOVING record of the leg to level 8. -/
def moving (count : Nat) : MovingRecord :=
  { calls := [fetch8], dir := .down, target := .level 8, count := count, inProgress := false }

/-- That record, of a lost drive. -/
def record8 (count : Nat) : Record :=
  { cause := .driveLost, phase := .full, x := ⟨some 500000, none⟩, v := ⟨0, 0⟩, kind := .moving (moving count) }

/-- The winder suspended with a record. -/
def suspended (x : Int) (k : RecordKind) : State :=
  { surveyed .suspended x with
    w.seq.record := some { cause := .driveLost, phase := .full, x := ⟨some x, none⟩, v := ⟨0, 0⟩, kind := k } }

/-- What a landing, node 6 at level 8 with a cage stop in compartment 1, is configured with. -/
def landingCfg : PointConfig :=
  { Config.noPoint with
    level := 8
    first := { comp := 1, hasLanding := true, servesMen := true, fitted := true, stop := 742000, down := 741000
               up := 741500 }
    half := 30 }

/-- A motion page of the winder. -/
def motion (w : WindState) (x v : Int) : MotionPage :=
  { wind := w, number := 40, x := ⟨some x, some 0⟩, v := ⟨v, -v⟩, dir := ⟨.down, .up⟩, known := true, validated := true
    cls := ⟨.empty, .fixed⟩ }

/-- A status page of the winder. -/
def status (k : WinderKind) (w : WindState) (first second : Nat) (parked : Option Nat) (custodian last : Nat) :
    StatusPage :=
  { phase := .none, wind := w, number := 40, kind := k, first := first, second := second, outcome := .complete
    call := none, lockout := false, record := false, count := 0, failConv := .a, ceiling := 0, refSpeed := 0
    refDir := .none, parked := parked, custodian := custodian, last := last, origin := 0, failNode := 0, seq := 0
    target := 0, mask := 0 }

/-- A winder as a shaft point has heard it. -/
def winderPeer (m : MotionPage) (q : StatusPage) : Peer :=
  { node := 1, heard := .present, conflict := false, role := .winder q.kind (some q.first) (some q.second)
    geometry := [], fitted := [], snapshot := some (.motion { report := ⟨m, q⟩, receivedAt := 0 })
    silence := some 3000 }

/-- The landing in a state, its gate closed and locked, with what its winder shows. -/
def landing (st : LandingState) (w : WindState) (parked : Option Nat) (custodian last : Nat) : State :=
  { running (nodeCfg .landing 6 Config.noWinder landingCfg) with
    peers := [winderPeer (motion w 742240 0) (status .service w 1 2 parked custodian last)]
    l.state := st, l.release := st == .custody, l.gateClosed := some true, l.gateLocked := some true
    l.stateTimer := some 1000 }

/-- The landing's call record of a kind with a status. -/
def callRecord (k : CallKind) (st : CallStatus) (q : Option Nat) : LandingCall :=
  { kind := k, level := 8, dest := none, status := st, seq := q, reason := none, mark := .none, suspendedSeen := false }

/-- What a skip point is configured with: one served compartment, 3, with a marker. -/
def skipCfg : PointConfig :=
  { Config.noPoint with
    first := { comp := 3, hasLanding := false, servesMen := false, fitted := true, stop := 3452000, down := 3451000
               up := 3451500 } }

/-- A loader or tipper, node 30, in a state with its skip present, its chute or door closed, and the winder of
compartments 3 and 4 heard in a wind state. -/
def skipPoint (r : Role) (st : PointState) (w : WindState) : State :=
  { running (nodeCfg r 30 Config.noWinder skipCfg) with
    peers := [winderPeer (motion w 3452000 0) (status .rock w 3 4 none 0 0)]
    k.state := st, k.working := if st = .noSkip then none else some .first, k.present := ⟨true, false⟩
    k.closed := some true, k.stateTimer := some 1000 }

/-- What a command makes of one item. -/
def after {α : Type} (c : Instr) (s : State) (f : State → α) : Option α :=
  match exec c s with
  | .next t => some (f t)
  | _ => none

/-! ## Decoding and well-formedness -/

/-- No row of the table has bits, so no word spells a command. -/
theorem test_no_word_spells_a_command : decodeTableWord 16 12345 = none := by decide

/-- R185, R191: node numbers are 1 to 40. -/
theorem test_wf_node : WellFormed.nodeOk 0 = false ∧ WellFormed.nodeOk 41 = false ∧ WellFormed.nodeOk 40 = true := by
  decide

/-- R204: compartments are 1 to 4, levels 0 to 31. -/
theorem test_wf_comp_level :
    WellFormed.compOk 0 = false ∧ WellFormed.compOk 5 = false ∧ WellFormed.levelOk 32 = false := by decide

/-- R204: the fields of depths and velocities. -/
theorem test_wf_fields :
    WellFormed.depthFits 8388608 = false ∧ WellFormed.depthFits (-8388608) = false
      ∧ WellFormed.speedFits 32768 = false ∧ WellFormed.speedFits (-32768) = false := by decide

/-- STARTING is no state that a STATE can carry. -/
theorem test_wf_state_frame :
    Instr.wf (.stateFrame 6 (.landing { landingState 8 with state := .starting })) = false
      ∧ Instr.wf (.stateFrame 6 (.landing (landingState 32))) = false
      ∧ WellFormed.skipReport (skipReport (skipPoint .loader .starting .idle)) = false
      ∧ Instr.wf (.stateFrame 6 (.landing (landingState 8))) = true := by decide

/-- Targets, levels and compartments of a CALL; numbers and positions of an ANSWER. -/
theorem test_wf_call_answer :
    Instr.wf (.callFrame 6 ⟨256, .fetch 8⟩) = false ∧ Instr.wf (.callFrame 6 ⟨1, .dispatch 8 32 .men⟩) = false
      ∧ Instr.wf (.callFrame 6 ⟨1, .ready 5⟩) = false ∧ Instr.wf (.answerFrame 1 ⟨6, some .fetch, .merged 65536⟩) = false
      ∧ Instr.wf (.answerFrame 1 ⟨6, some .fetch, .accepted 256 1⟩) = false := by decide

/-- Fields of an ANNOUNCE. -/
theorem test_wf_announce :
    Instr.wf (.announceFrame 1 (.winder ⟨.service, 5, true, false⟩)) = false
      ∧ WellFormed.pointAnnounce
          { point := .landing 8, comp := 1, start := true, hasLanding := true, servesMen := true, fitted := true
            stop := 0, down := 0, up := 0, half := 256, zoneSpeed := 20 } = false := by decide

/-- FAULTED never appears in a frame (R204), and a resume count has two bits. -/
theorem test_wf_pages :
    Instr.wf (.motionPage 1 (.motion (motion .faulted 0 0))) = false
      ∧ Instr.wf (.motionPage 1 (.status { status .service .idle 1 2 none 0 0 with count := 4 })) = false
      ∧ Instr.wf (.motionPage 1 (.motion (motion .idle 0 0))) = true := by decide

/-- Senders, MARKER compartments and ages, and the other frame commands. -/
theorem test_wf_frames :
    Instr.wf (.alarmFrame 41 1) = false ∧ Instr.wf (.markerFrame 7 0 4) = false ∧ Instr.wf (.markerFrame 7 1 256) = false
      ∧ WellFormed.frame ⟨6, .heardOnly⟩ = false ∧ Instr.wf (.silenceTimeout 0) = false := by decide

/-- R176, R184: a length field above 16, and data of another length. -/
theorem test_wf_raw_frame :
    Instr.wf (.frameReceived ⟨0, 17, List.replicate 17 0, 0⟩) = false ∧ Instr.wf (.frameReceived ⟨0, 2, [0], 0⟩) = false := by
  decide

/-- R205: an image has 208 bytes. -/
theorem test_wf_image : Instr.wf (.configReadEnd (.completed [0])) = false := by decide

/-! ## The manual's worked cases -/

/-- Chapter 2's worked values of V. -/
theorem test_curve_worked_values :
    curve 59373 400 900 = 10345 ∧ curve (3050000 - 2928627) 0 900 = 14780 ∧ curve 108800 400 900 = 14000
      ∧ curve 79911 400 900 = 11999 ∧ curve 87000 2000 900 = 12672 ∧ curve 18373 2000 900 = 6088
      ∧ curve 30000 6000 900 = 9486 ∧ curve (-1000) 6000 900 = 6000 ∧ curve 2919000 400 700 = 20000 := by decide

/-- A SLOW cap falling from 11,950 over 22,067 and 60,000 mm at 900. -/
theorem test_cap_worked_values : fallFrom 11950 900 22067 = 10152 ∧ fallFrom 11950 900 60000 = 5899 := by decide

/-- Position and speed of the descending cage (chapter 1): N is u_A, K_A = 120, and 198 counts in ten samples. -/
def descending : State :=
  { winder .running with
    w.tr.n := 2809856, w.tr.origin := some { n0 := 0, q := ⟨0, 0⟩ }, w.tr.k := ⟨120, 0⟩, w.tr.cls := ⟨.men, .fixed⟩
    w.tr.window := List.replicate 10 2809658 }

theorem test_position_worked_case :
    (computeTrack descending).w.tr.paid.a = some 2946900 ∧ (computeTrack descending).w.tr.stretch.a = some 9607
      ∧ (computeTrack descending).w.tr.x.a = some 2928627 ∧ (computeTrack descending).w.tr.v.a = 10050
      ∧ ((computeTrack descending).w.tr.history.head?.bind (·.x)).map (·.a) = some 2928507
      ∧ (computeTrack descending).w.tr.dir.a = .down := by decide

/-- The supervision ceiling of C = 10,345 is 11,172 (section 2.6). -/
theorem test_supervision_worked_case : supervisionCeiling winderCfg 10345 = 11172 := by decide

/-- Priority fields of the three frames that start together (section 9.4). -/
theorem test_priority_fields :
    (encodeFrame ⟨7, .marker 1 4⟩).priority = 71 ∧ (encodeFrame ⟨1, .page (.motion (motion .idle 0 0))⟩).priority = 129
      ∧ (encodeFrame ⟨6, .state (.landing (landingState 8))⟩).priority = 198 := by decide

/-- Landing 7 at level 16, its winder's report received at 0 with a position and 11,950 mm/s. -/
def checking (x : Int) (now : Nat) : State :=
  { landing .noCage .running none 0 0 with
    clock := now, peers := [winderPeer (motion .running x 11950) (status .service .running 1 2 none 0 0)] }

/-- The cross-check at level 16: sound at 40 ms from 1,512,100, in doubt at 30 ms from 1,509,000. -/
theorem test_cross_check_worked_case :
    crossCheck (checking 1512100 40) { landingCfg.first with down := 1512700 } = some false
      ∧ crossCheck (checking 1509000 30) { landingCfg.first with down := 1512700 } = some true := by decide

/-! ## States that meet the hypotheses of the statements -/

/-- `StepRunsTheFrontCommand`, and the two cases of `EmptyQueueLetsTimePass` beside a node without supply. -/
theorem test_witness_queue :
    ({ winder .idle with pending := [.cancel] }).pending = .cancel :: [] ∧ (winder .idle).pending = []
      ∧ (winder .idle).step ≠ .off ∧ dueCommand (winder .idle) = none
      ∧ dueCommand { winder .idle with w.sampleTimer := some 0 } = some .positionSample
      ∧ ({ State.reset with step := .off }).pending = [] := by decide +kernel

set_option maxRecDepth 8000 in
/-- The statements of what every step keeps: a winder under way takes a step from a state of every invariant. -/
theorem test_witness_invariants :
    (∃ t, step (underWay .running) = .next t) ∧ ReferenceSafe (underWay .running) ∧ PermitPlaced (underWay .running)
      ∧ PlacesSound (underWay .running) ∧ PeersSound (underWay .running) ∧ TrackBounded (underWay .running)
      ∧ CorrectionSafe (underWay .running) ∧ ReleaseInCustody (underWay .running)
      ∧ ListBounded (underWay .preparing) ∧ PinsAgree (showPins (underWay .running)) := by
  refine ⟨⟨_, rfl⟩, ?_⟩
  delta ReferenceSafe PermitPlaced PlacesSound PeersSound TrackBounded CorrectionSafe ReleaseInCustody ListBounded PinsAgree
  refine ⟨by decide, by decide, ⟨?_, by decide⟩, by decide, by decide, by decide, by decide, by decide, rfl⟩
  intro p h
  cases h

/-- `ReferenceAndPermitSafeKept`, the MODE cap: in INSPECTION and SURVEY at its speed, none in RUNNING; and the cap in force is
another where it does not. -/
theorem test_witness_mode_cap :
    (let capped (w : WindState) (v : Nat) : State := { winder w with w.env.capMode := some ⟨v, 0, 0, true, false⟩ }
     ModeCapHeld (capped .inspection 1000) ∧ ModeCapHeld (capped .survey 800) ∧ ModeCapHeld (underWay .running)
      ∧ ¬ModeCapHeld (capped .running 800)) :=
  ⟨⟨fun _ => ⟨_, rfl, by decide⟩, fun h => absurd h (by decide), fun h => absurd rfl h, by decide⟩
  , ⟨fun h => absurd h (by decide), fun _ => ⟨_, rfl, by decide⟩, fun _ h => absurd rfl h, by decide⟩
  , ⟨fun h => absurd h (by decide), fun h => absurd h (by decide), by decide, by decide⟩
  , fun h => absurd (h.2.2.1 (by decide) (by decide)) (by decide)⟩

/-- `PinsAndReleaseKept`: TRIP and PERMIT of a winder under way, with a kind HELD under TRIP_LATCHED and ACTIVE under TRIP_AUTO, and
with one ACTIVE under STOP; the loader's LOAD PERMIT and the landing's release. -/
theorem test_witness_pins :
    (let shown (s : State) : Bool × Bool := ((pinsOf s).trip, (pinsOf s).permit)
     shown (underWay .running) = (false, true)
      ∧ shown { underWay .running with w.flt.kinds.alarm := ⟨false, .held⟩ } = (true, false)
      ∧ shown { underWay .running with w.flt.kinds.overrun := ⟨true, .active⟩ } = (false, true)
      ∧ (pinsOf
          { underWay .running with
            cfg := some (nodeCfg .winder 1 { winderCfg with reactions.overrun := .tripAuto } Config.noPoint)
            w.flt.kinds.overrun := ⟨true, .active⟩ }).trip = true
      ∧ (pinsOf (landing .custody .idle (some 8) 6 0)).gateRelease = true
      ∧ (pinsOf { skipPoint .loader .loading .idle with k.loadPermit := true }).loadPermit = true) := by decide

/-- `RecordAndListSoundKept`: a record resumed three times. -/
theorem test_witness_resumes : ResumesBounded (suspended 500000 (.moving (moving 3))) := by
  intro r m h k
  cases h
  cases k
  decide

/-- `RecordAndListSoundKept`: a call in the slot and another in the list, and a suspended record's call beside it. -/
theorem test_witness_distinct :
    CallsDistinct { underWay .preparing with w.seq.list := [fetch0] }
      ∧ CallsDistinct { suspended 500000 (.moving (moving 0)) with w.seq.list := [fetch0] }
      ∧ ¬CallsDistinct { underWay .preparing with w.seq.list := [{ fetch8 with seq := 9 }] } := by
  delta CallsDistinct callsDiffer
  decide

/-- `FaultKindsAndTripFollow`: an ALARM at a winder in IDLE. -/
theorem test_witness_trip :
    ∃ t, exec (.alarmFrame 6 1) (surveyed .idle 742240) = .next t ∧ Tracks t ∧ Runs t .winder ∧ tripLevel t = true := by
  refine ⟨_, rfl, ?_⟩
  delta Tracks Runs
  decide

/-- `FaultStatesAndTripCauseFollow`: an event raised for a sample is ACTIVE at it and HELD or CLEAR by its reaction at the next;
HELD stays through other commands and goes at a fault reset. -/
theorem test_witness_fault_states :
    (let raised : State := { underWay .running with w.flt.raised.overspeed := true, w.flt.raised.markerMissed := true }
     let shown (c : Instr) (s : State) : Option (FaultState × FaultState) :=
       after c s fun t => (faultState t .overspeed, faultState t .markerMissed)
     let next : State :=
       { underWay .running with
         w.flt.atSample := raised.w.flt.raised, w.flt.kinds.overspeed := ⟨true, .active⟩
         w.flt.kinds.markerMissed := ⟨true, .active⟩ }
     let held : State := { underWay .running with w.flt.kinds.overspeed := ⟨false, .held⟩ }
     Tracks raised ∧ raised.w.sampleTimer.isSome = true ∧ FaultsSettled raised ∧ FaultsSettled next
      ∧ shown .positionSample raised = some (.active, .active) ∧ shown .positionSample next = some (.held, .clear)
      ∧ shown .cancel held = some (.held, .clear) ∧ shown .faultReset held = some (.clear, .clear)) := by
  delta Tracks FaultsSettled
  decide

/-- `FaultStatesAndTripCauseFollow`, the trip cause: of OVERSPEED and ENCODER at one sample it is OVERSPEED; an ALARM after it
leaves it, and so does the release. -/
theorem test_witness_trip_cause :
    (let raised : State :=
       { underWay .running with
         w.tr.origin := some { n0 := 0, q := ⟨528000, 200000⟩ }
         w.flt.raised.encoder := true, w.flt.raised.overspeed := true }
     let both (c : Instr) (s : State) : Option (Bool × TripCause) := after c s fun t => (t.w.flt.trip, t.w.flt.tripCause)
     let trips : State := (after .positionSample raised id).getD raised
     let calm : State := { trips with w.flt.atSample := PowerUp.all false, w.flt.raised := PowerUp.all false }
     raised.w.flt.trip = false ∧ (wcfg raised).reactions.encoder ≠ .tripAuto
      ∧ both .positionSample raised = some (true, .fault .overspeed)
      ∧ both (.alarmFrame 6 1) trips = some (true, .fault .overspeed)
      ∧ both .faultReset (updateFaults calm) = some (false, .fault .overspeed)) := by decide +kernel

/-- `ChangesAreReported`, a winder: the selector turned to INSPECTION in IDLE. -/
theorem test_witness_wind_change :
    ∃ t, exec (.modeSelectorChange false true false) (winder .idle) = .next t ∧ (winder .idle).step = .run
      ∧ Runs t .winder ∧ t.w.seq.wind ≠ (winder .idle).w.seq.wind := by
  refine ⟨_, rfl, ?_⟩
  delta Runs
  decide

/-- `ChangesAreReported`, a shaft point: the STOP switch of a landing. -/
theorem test_witness_content_change :
    ∃ t, exec (.stopSwitchChange true) (landing .noCage .idle none 0 0) = .next t
      ∧ (landing .noCage .idle none 0 0).step = .run ∧ t.step = .run ∧ hasRole t .winder = false
      ∧ withoutTarget (ownState (landing .noCage .idle none 0 0)) ≠ withoutTarget (ownState t) :=
  ⟨_, rfl, by decide⟩

/-- `ShaftPointLevelsHold`: a loader loading under an IDLE winder, and a landing whose key is turned on. -/
theorem test_witness_levels :
    (∃ t, exec (.chuteContactChange false) (skipPoint .loader .loading .idle) = .next t ∧ t.step = .run
        ∧ isSkipPoint t = true ∧ t.k.loadPermit = true)
      ∧ ∃ t, exec (.outOfServiceKeyChange true) (landing .noCage .idle none 0 0) = .next t ∧ t.step = .run
          ∧ hasRole t .landing = true ∧ isOn t.l.outKey = true :=
  ⟨⟨_, rfl, by decide⟩, ⟨_, rfl, by decide⟩⟩

/-- `PaidLengthSumsTheLayers` and `GoverningCeilingIsBounded`: a layer table, and caps in force at their values. -/
theorem test_witness_functions :
    (conveyance (winder .idle) .a).layers ≠ [] ∧ governs (underWay .running) = true
      ∧ governs { winder .survey with w.env.capMode := modeCap (winder .survey) .survey } = true
      ∧ (modeCap (winder .survey) .survey).map (·.flat) = some true
      ∧ (flatCap (winder .idle) 1000).flat = true := by decide +kernel

/-- The first 206 bytes of a landing's image: its identity, every other field unset. -/
def landingImage : List Byte :=
  [49, 64, 1, 6, 0] ++ List.replicate 11 255 ++ [8, 1, 0] ++ List.replicate 187 255

/-- The same of a winder: its identity, every other field unset. -/
def winderImage : List Byte :=
  [49, 64, 0, 1, 0] ++ List.replicate 11 255 ++ [0, 1, 2] ++ List.replicate 187 255

/-- Its 198 unset bytes and 129 of identity total 50,619 (197 and 187), whose bytes are 197 and 187. -/
def landingWhole : List Byte := landingImage ++ [197, 187]

/-- The winder's total is 50,607. -/
def winderWhole : List Byte := winderImage ++ [197, 175]

/-- An image whose node number 41 is out of range, its total 50,654. -/
def identityWhole : List Byte := (landingImage.set 3 41) ++ [197, 222]

set_option maxRecDepth 8000 in
/-- `AcceptedImageIsClamped`: images that are accepted. -/
theorem test_witness_accepted_image :
    (acceptImage landingWhole).isSome = true ∧ (acceptImage winderWhole).isSome = true := by decide +kernel

set_option maxRecDepth 8000 in
/-- `AcceptedImageIsClamped`: creep 99 and 1,001 are clamped and 700 is taken, unset it is 400; OVERRUN configured SLOW is STOP,
OVERSPEED REPORT is TRIP_AUTO, TRACKING TRIP_AUTO is TRIP_LATCHED, GATE_BREACH TRIP_LATCHED is TRIP_AUTO, and a byte of 5 is the
default (R115's own examples). -/
theorem test_image_fields :
    (let with' (l : List (Nat × Byte)) : Option WinderConfig :=
       (acceptImage (l.foldl (fun m p => m.set p.1 p.2) winderWhole)).map (·.w)
     let creep (hi lo : Byte) : Option Nat := (with' [(156, hi), (157, lo)]).map (·.creep)
     let reacts (k : FaultKind) (b : Byte) : Option Reaction := (with' [(185 + k.code, b)]).map fun w => w.reactions.get k
     creep 0 99 = some 100 ∧ creep 3 233 = some 1000 ∧ creep 2 188 = some 700 ∧ creep 255 255 = some 400
      ∧ reacts .overrun 3 = some .stop ∧ reacts .overspeed 4 = some .tripAuto ∧ reacts .tracking 1 = some .tripLatched
      ∧ reacts .gateBreach 0 = some .tripAuto ∧ reacts .peerSilent 5 = some .slow ∧ reacts .peerSilent 2 = some .stop) := by
  decide +kernel

/-- The node while it reads its image. -/
def reading (failures badSums : Nat) : State :=
  { State.reset with loader.failures := failures, loader.badSums := badSums }

set_option maxRecDepth 8000 in
/-- `ConfigurationReadEnds`: two failures and none, an image of 207 bytes, a sum that does not match, a waiting
retry. -/
theorem test_witness_failed_reads :
    (reading 1 0).step = .config ∧ (reading 1 0).loader.reading = true ∧ (reading 1 0).loader.failures < 2
      ∧ 2 ≤ (reading 2 1).loader.failures ∧ (landingWhole.drop 1).length ≠ 208
      ∧ (landingImage ++ [197, 188]).length = 208 ∧ sumMatches (landingImage ++ [197, 188]) = false
      ∧ (reading 0 0).loader.badSums = 0 ∧ 1 ≤ (reading 2 1).loader.badSums
      ∧ ({ reading 1 0 with loader.retry := some 0 }).loader.retry.isSome = true := by decide +kernel

set_option maxRecDepth 8000 in
/-- `ConfigurationReadEnds`, a sum that matches: an image for each clause. -/
theorem test_witness_matching_image :
    landingWhole.length = 208 ∧ sumMatches landingWhole = true ∧ identityOk landingWhole = true
      ∧ winderWhole.length = 208 ∧ sumMatches winderWhole = true ∧ identityOk winderWhole = true
      ∧ identityWhole.length = 208 ∧ sumMatches identityWhole = true ∧ identityOk identityWhole = false := by decide +kernel

/-- A node at the end of its listen period. -/
def listening (s : State) : State := { s with step := .listen, listen := some 0, line.mode := .receiveOnly }

/-- `ListenEndEntersTheRole`: a node of each kind. -/
theorem test_witness_listen_end :
    (listening (winder .starting)).step = .listen ∧ (listening (winder .starting)).listen.isSome = true
      ∧ (listening (winder .starting)).cfg.isSome = true ∧ (listening (winder .starting)).line.attempt = none
      ∧ (listening (winder .starting)).line.queue.announce = ⟨none, none⟩
      ∧ hasRole (listening (winder .starting)) .winder = true
      ∧ hasRole (listening (landing .starting .idle (some 8) 0 0)) .landing = true
      ∧ isSkipPoint (listening (skipPoint .tipper .starting .idle)) = true := by decide +kernel

/-- `PositionSampleTracks` and `EncoderEdgesCountAndAStallTrips`: a surveyed winder under way, its stall timer
running. -/
theorem test_witness_track :
    Tracks (underWay .running) ∧ (underWay .running).w.sampleTimer.isSome = true
      ∧ Tracks { underWay .running with w.tr.stall := some 500 }
      ∧ stallRuns { underWay .running with w.tr.stall := some 500 } = true
      ∧ (wcfg (underWay .running)).reactions.encoder = .tripLatched
      ∧ (underWay .running).step ≠ .off ∧ hasRole (underWay .running) .winder = true := by
  delta Tracks
  decide

/-- `DirectionFollowsTheVelocity`: the descending cage with its window full, and a winder whose window holds 9. -/
theorem test_witness_direction :
    Tracks descending ∧ descending.w.sampleTimer.isSome = true ∧ descending.w.tr.window[9]? = some 2809658
      ∧ descending.w.tr.origin = some { n0 := 0, q := ⟨0, 0⟩ }
      ∧ ({ descending with w.tr.window := List.replicate 9 0 }).w.tr.window.length < 10
      ∧ after .positionSample descending (fun t => (t.w.tr.v.a, t.w.tr.dir.a)) = some (10050, .down) := by
  delta Tracks
  decide

/-- The velocity without an origin: 198 counts of the largest layer's 17,600,000 µm per turn, in ten samples. -/
theorem test_witness_velocity_without_origin :
    (∀ m ∈ (conveyance descending .a).layers, m.lam ≤ 17600000)
      ∧ after .positionSample { descending with w.tr.origin := none } (·.w.tr.v) = some ⟨10634, -10634⟩ := by decide

/-- `DriveLossAndStandstillSuspend`: a leg in RUNNING, and one in STOPPING with its cause. -/
theorem test_witness_drive_loss :
    InWind (underWay .running) .running ∧ isOn (underWay .running).w.panel.driveRunning = true
      ∧ (underWay .running).w.env.completion = false ∧ (underWay .running).w.seq.leg = some (leg8 .call)
      ∧ InWind { underWay .stopping with w.seq.stopCause := some (.node 6), w.seq.haltZero := some 0 } .stopping := by
  delta InWind Runs
  decide

/-- Whether a command leads to a wind state with a record of the fetch from level 8, of a count and a target. -/
def suspends (c : Instr) (s : State) (w : WindState) (count : Nat) (target : ResumeTarget) : Bool :=
  match exec c s with
  | .next t =>
    t.w.seq.wind == w
      && t.w.seq.record.any fun r =>
        match r.kind with
        | .moving m => m.calls == [fetch8] && m.count == count && m.target == target
        | .parked _ => false
  | _ => false

/-- `DriveLossAndStandstillSuspend`, the record: a RESUME leg's is re-captured with its own count and target, a CALL leg's is
new; and the selector at INSPECTION. -/
theorem test_witness_recapture :
    (let resumed (w : WindState) : State :=
       { underWay w with
         w.seq.leg := some (leg8 .resume), w.seq.stopCause := some (.node 6), w.seq.haltZero := some 0
         w.seq.record :=
           some { cause := .driveLost, phase := .full, x := ⟨none, none⟩, v := ⟨0, 0⟩
                  kind := .moving { moving 2 with target := .level 16, inProgress := true } } }
     suspends (.driveRunningChange false) (resumed .running) .suspended 2 (.level 16) = true
      ∧ suspends .haltZeroTimeout (resumed .stopping) .suspended 2 (.level 16) = true
      ∧ suspends (.driveRunningChange false) (underWay .running) .suspended 0 (.level 8) = true
      ∧ (after (.driveRunningChange false) (resumed .running) fun t => (tripLevel t, t.w.panel.selector))
          = some (false, .normal)
      ∧ suspends (.driveRunningChange false) { resumed .running with w.panel.selector := .inspection } .inspection 2
          (.level 16) = true) := by decide

/-- `DriveLossAndStandstillSuspend`, the STOPPING of a failed survey: by the drive's drop and by the halt term it stands still in
IDLE with no record, on a validated track with a call that may start in PREPARING, and with the selector at INSPECTION there. -/
theorem test_witness_survey_standstill :
    (let stopped : State :=
       { underWay .stopping with
         w.seq.leg := none, w.seq.slot := [], w.tr.validated := false, w.seq.haltZero := some 0, w.seq.list := [fetch8] }
     let ends (c : Instr) (s : State) : Option (WindState × Bool × Bool × Bool) :=
       after c s fun t => (t.w.seq.wind, t.w.seq.permit, t.w.seq.record.isSome, t.w.flt.trip)
     InWind stopped .stopping
      ∧ ends (.driveRunningChange false) stopped = some (.idle, false, false, false)
      ∧ ends .haltZeroTimeout stopped = some (.idle, false, false, false)
      ∧ ends .haltZeroTimeout { stopped with w.tr.validated := true } = some (.preparing, true, false, false)
      ∧ ends .haltZeroTimeout { stopped with w.panel.selector := .inspection } = some (.inspection, false, false, false)
      ∧ ends .haltZeroTimeout { stopped with w.flt.alarmSet := [6] } = some (.tripped, false, false, true)) := by
  delta InWind Runs
  decide

/-- `FailedStartReturnsItsCalls`: a CALL leg and a RESUME leg in PREPARING. -/
theorem test_witness_start_failure :
    InWind { underWay .preparing with w.seq.startTimer := some 0 } .preparing
      ∧ (underWay .preparing).w.seq.leg = some (leg8 .call) ∧ isOn (underWay .preparing).w.panel.driveRunning = true
      ∧ ({ underWay .preparing with w.seq.leg := some (leg8 .resume) }).w.seq.leg = some (leg8 .resume) := by
  delta InWind Runs
  decide

/-- `FailedStartReturnsItsCalls`: with no custody to end, the call in the slot returns to the list before a second one. -/
theorem test_witness_start_returns_calls :
    (underWay .preparing).w.seq.custodian = none ∧ (underWay .preparing).w.seq.last = none
      ∧ candidateFails (underWay .preparing) fetch8 = false
      ∧ (callTarget (underWay .preparing) fetch8).all (within (underWay .preparing) .a) = false
      ∧ after .startTimerExpiry { underWay .preparing with w.seq.startTimer := some 0, w.seq.list := [fetch0] }
          (·.w.seq.list) = some [fetch8, fetch0] := by decide

/-- A start whose leg needs 100 mm of travel, so many counts after its entry. -/
def handshake (n : Count) : State :=
  { underWay .preparing with
    w.seq.leg := some { leg8 .call with need := some 100 }, w.seq.startTimer := some 2000
    w.env.acc := some { n := 0, v0 := 0 }, w.tr.n := n, w.tr.origin := some { n0 := 0, q := ⟨528000, 200000⟩ } }

/-- `CompletedLegEnds`, the handshake: at 17,600,000 µm per 16,384 counts, 94 counts are 100 mm and 93 are not. -/
theorem test_witness_handshake :
    InWind (handshake 94) .preparing ∧ (handshake 94).w.sampleTimer.isSome = true ∧ (handshake 94).w.env.applied = []
      ∧ startBar (handshake 94) = none ∧ (legTarget (handshake 94)).any (targetAway (handshake 94)) = false
      ∧ after .positionSample (handshake 94) (fun t => (t.w.seq.wind, noStopActive t, tripLevel t))
          = some (.running, true, false)
      ∧ after .positionSample (handshake 93) (·.w.seq.wind) = some .preparing := by
  delta InWind Runs
  decide

/-- A leg to 742,240 before its first sample, its position given by the residual of A. -/
def firstSample (q : Int) : State :=
  { underWay .preparing with w.seq.startTimer := some 2000, w.tr.origin := some { n0 := 0, q := ⟨q, 200000⟩ } }

/-- The wind state, the need and the acceleration start that a sample leaves. -/
def sampled (s : State) : Option (WindState × Option Int × Option Latch) :=
  after .positionSample s fun t => (t.w.seq.wind, t.w.seq.leg.bind (·.need), t.w.env.acc)

/-- `CompletedLegEnds`, the first sample of a leg: its need is latched, 100 mm far from the target and what is left near
it; at its target it runs at once; without an origin it needs 100 mm. The acceleration start is that sample. -/
theorem test_witness_first_sample :
    InWind (firstSample 528000) .preparing ∧ (firstSample 528000).w.seq.leg = some (leg8 .call)
      ∧ (leg8 .call).need = none ∧ (firstSample 528000).w.env.acc = none
      ∧ sampled (firstSample 528000) = some (.preparing, some 100, some { n := 0, v0 := 400 }) := by
  delta InWind Runs
  decide

theorem test_witness_need :
    sampled (firstSample 770189) = some (.preparing, some 50, some { n := 0, v0 := 400 })
      ∧ sampled (firstSample 770239) = some (.running, some 0, some { n := 0, v0 := 400 })
      ∧ sampled { firstSample 0 with w.tr.origin := none, w.tr.x := ⟨none, none⟩ }
          = some (.preparing, some 100, some { n := 0, v0 := 400 }) := by decide

/-- `CompletedLegEnds`, without an origin: 94 counts of the largest layer's 17,600,000 µm are 100 mm and 93 are not; and
with the drive not RUNNING the leg waits. -/
theorem test_witness_handshake_without_origin :
    after .positionSample { handshake 94 with w.tr.origin := none } (·.w.seq.wind) = some .running
      ∧ after .positionSample { handshake 93 with w.tr.origin := none } (·.w.seq.wind) = some .preparing
      ∧ after .positionSample { handshake 94 with w.panel.driveRunning := some false } (·.w.seq.wind)
          = some .preparing := by decide

/-- The handshake with a cap term at the previous sample, its ceiling 900. -/
def capped : State := { handshake 94 with w.env.applied := [.cap], w.env.ceiling := 900 }

/-- R32, R45: the acceleration start is latched again when the cap term is left out, no travel being made since, and kept
while one is present, as where a SLOW cap stays after a RESUMED one. -/
theorem test_restriction_left_out :
    sampled capped = some (.preparing, some 100, some { n := 94, v0 := 900 })
      ∧ sampled { capped with w.env.capSlow := some ⟨900, 0, 900, true, true⟩ }
          = some (.running, some 100, some { n := 0, v0 := 0 })
      ∧ sampled { capped with w.env.capResumed := some ⟨1000, 0, 1000, true, false⟩ }
          = some (.running, some 100, some { n := 0, v0 := 0 })
      ∧ after .positionSample
          { capped with w.env.applied := [.cap, .passing], w.env.capSlow := some ⟨900, 0, 900, true, true⟩ }
          (·.w.env.acc) = some (some { n := 94, v0 := 900 }) := by decide

/-- `PositionSampleTracks`: OVERRUN 51 mm past the stop and not at 50, in RUNNING and STOPPING; with the leg's target out of force
in IDLE none. -/
theorem test_witness_overrun :
    (let at' (w : WindState) (q : Int) : Option (Bool × FaultState) :=
       after .positionSample { underWay w with w.tr.origin := some { n0 := 0, q := ⟨q, 200000⟩ } }
         fun t => (t.w.flt.overrun, faultState t .overrun)
     at' .running 770290 = some (true, .active) ∧ at' .running 770289 = some (false, .clear)
      ∧ at' .stopping 770290 = some (true, .active) ∧ at' .idle 770290 = some (false, .clear)) := by decide

/-- `PositionSampleTracks`, R6 and R25: a count below 0 is ENCODER and clears the validated flag, one of 0 is not; so does a stall
since the latest sample. -/
theorem test_witness_count_below_zero :
    (let at' (n : Count) (seen : Bool) : Option (Option Int × Bool × FaultState × Bool) :=
       after .positionSample { underWay .running with w.tr.n := n, w.tr.stallSeen := seen }
         fun t => (t.w.tr.u.a, t.w.tr.negative, faultState t .encoder, t.w.tr.validated)
     at' (-1) false = some (some (-1), true, .active, false) ∧ at' 0 false = some (some 0, false, .clear, true)
      ∧ at' 0 true = some (some 0, false, .clear, false)) := by decide

/-- A leg to 742,240 at a standstill, its position given by the residual of A. -/
def nearing (q : Int) : State := { underWay .running with w.tr.origin := some { n0 := 0, q := ⟨q, 200000⟩ } }

/-- `CompletedLegEnds`, the completion flag: 50 mm short of the target, and 51. -/
theorem test_witness_completion_flag :
    InWind (nearing 770189) .running ∧ (nearing 770189).w.sampleTimer.isSome = true
      ∧ (nearing 770189).w.seq.leg = some (leg8 .call)
      ∧ after .positionSample (nearing 770189) (fun t => (t.w.tr.x.a, t.w.env.completion, t.w.seq.completionWait))
          = some (some 742190, true, some 3000)
      ∧ after .positionSample (nearing 770188) (·.w.env.completion) = some false := by
  delta InWind Runs
  decide

/-- `CompletedLegEnds`: a completed leg, by the wait and by the drop. -/
theorem test_witness_completed_leg :
    InWind { underWay .running with w.env.completion := true, w.seq.completionWait := some 0 } .running
      ∧ (underWay .running).w.seq.custodian = none ∧ (underWay .running).w.seq.list = []
      ∧ inResumedLeg { underWay .running with w.seq.leg := some (leg8 .resume) } = true := by
  delta InWind Runs
  decide

/-- `CompletedLegEnds`, the state after the leg: IDLE, PREPARING for the next call, INSPECTION by the selector, and TRIPPED by a
stall that the end of the leg meets. -/
theorem test_witness_leg_end :
    (let done : State := { underWay .running with w.env.completion := true, w.seq.completionWait := some 0 }
     let ends (s : State) : Option (WindState × Bool × Option Record) :=
       after .completionWaitExpiry s fun t => (t.w.seq.wind, tripLevel t, t.w.seq.record)
     ends done = some (.idle, false, none)
      ∧ ends { done with w.seq.leg := some (leg8 .resume), w.seq.record := some (record8 2) } = some (.idle, false, none)
      ∧ ends { done with w.seq.list := [fetch0] } = some (.preparing, false, none)
      ∧ ends { done with w.panel.selector := .inspection } = some (.inspection, false, none)
      ∧ ends { done with w.flt.alarmSet := [6] } = some (.tripped, true, none)) := by decide

/-- `ServiceOrderStartsLegs`: the timers running. -/
theorem test_witness_winder_timers :
    Runs { winder .idle with w.seq.motionTimer := some 0, w.drive.timer := some 0 } .winder
      ∧ ({ winder .idle with w.seq.motionTimer := some 0 }).w.seq.motionTimer.isSome = true
      ∧ (winder .idle).w.drive.timer.isSome = true := by
  delta Runs
  decide

/-- A fetch waits in IDLE for its release hold. -/
def calling : State := { surveyed .idle 500000 with w.seq.list := [fetch8], w.seq.releaseHold := some 0 }

/-- `ServiceOrderStartsLegs`, a service winder's start. -/
theorem test_witness_service_start :
    InWind calling .idle ∧ FaultsSettled calling ∧ isRock calling = false ∧ calling.w.seq.custodian = none
      ∧ tripLevel calling = false ∧ (∀ k ∈ FaultKind.all, faultState calling k = .clear) ∧ calling.w.tr.validated = true
      ∧ calling.w.panel.selector = .normal ∧ calling.w.flt.alarmSet = []
      ∧ (∀ q ∈ members calling, (stateOf q).any (fun r => !showsHold r && enclosureClosed r) = true)
      ∧ calling.w.seq.list = [] ++ fetch8 :: [] ∧ calling.w.seq.lockout = false
      ∧ landingAt calling 1 8 = some (landingPeer 6 8 742240) ∧ stopDepth calling .a 6 = some 742240
      ∧ geometryOf (landingPeer 6 8 742240) 1 = some (geometry 8 742240)
      ∧ after .releaseHoldExpiry calling (fun t => (t.w.seq.wind, t.w.seq.slot, t.pins.permit))
          = some (.preparing, [fetch8], true) := by
  delta InWind Runs FaultsSettled
  decide

/-- A FETCH whose level no landing announces, ahead of another. -/
def fetch9 : Call := { fetch0 with level := 9 }

/-- The winder with that FETCH as its candidate, the lockout set. -/
def refusing : State := { calling with w.seq.list := [fetch9, fetch8], w.seq.lockout := true }

/-- The winder within tolerance of its candidate's stop, the lockout set. -/
def arrived : State :=
  { calling with w.tr.x := ⟨some 742240, some 1557760⟩, w.seq.list := [fetch8, fetch0], w.seq.lockout := true }

/-- The wind state, the list and the answers that the release hold's end leaves. -/
def holdEnd (s : State) : Option (WindState × List Call × List AnswerFrame) :=
  after .releaseHoldExpiry s fun t => (t.w.seq.wind, t.w.seq.list, t.line.queue.answer)

/-- `ServiceOrderStartsLegs`, the candidate that leaves: it fails its check, with room for its answer and without; or its stop
lies within tolerance; in each case the FETCH behind it is the next. -/
theorem test_witness_candidate_leaves :
    InWind refusing .idle ∧ FaultsSettled refusing ∧ FaultsSettled arrived ∧ landingAt refusing 1 9 = none
      ∧ tripLevel refusing = false ∧ refusing.w.seq.releaseHold.isSome = true
      ∧ holdEnd refusing = some (.idle, [fetch8], [droppedAnswer fetch9])
      ∧ holdEnd { refusing with line.queue.answer := List.replicate 8 (droppedAnswer fetch8) }
          = some (.idle, [{ fetch9 with mark := some 0 }, fetch8], List.replicate 8 (droppedAnswer fetch8))
      ∧ holdEnd arrived = some (.idle, [fetch0], [])
      ∧ after .releaseHoldExpiry { arrived with w.seq.lockout := false } (fun t => (t.w.seq.wind, t.w.seq.slot, t.w.seq.list))
          = some (.preparing, [fetch0], []) := by
  delta InWind Runs FaultsSettled
  decide

theorem test_witness_calls_distinct : CallsDistinct refusing ∧ CallsDistinct arrived := by
  delta CallsDistinct callsDiffer
  decide

/-- `ServiceOrderStartsLegs`, R80's order: the last custodian's DISPATCH before the RELEVEL before it, which goes before an older
FETCH; a DISPATCH of another origin is passed over; a dropping entry too; and the release hold lets a DISPATCH through alone. -/
theorem test_service_order :
    (let relevel : Call := { fetch8 with kind := .relevel, seq := 9 }
     let dispatch (n : Nat) : Call := { fetch8 with kind := .dispatch, origin := n, dest := some 16, seq := 10 + n }
     let order (l : List Call) : State := { calling with w.seq.list := l, w.seq.last := some 6, w.seq.releaseHold := none }
     let held (l : List Call) : State := { order l with w.seq.releaseHold := some 500 }
     serviceOrder (order [fetch0, relevel, dispatch 5, dispatch 6]) = some (dispatch 6)
      ∧ serviceOrder (order [fetch0, relevel, dispatch 5]) = some relevel
      ∧ serviceOrder (order [fetch0, { relevel with mark := some 1 }, fetch8]) = some fetch0
      ∧ serviceOrder (held [fetch0, relevel, dispatch 6]) = some (dispatch 6)
      ∧ serviceOrder (held [fetch0, relevel, dispatch 5]) = none
      ∧ after .releaseHoldExpiry { order [fetch0, { relevel with mark := some 1 }, dispatch 6] with w.tr.x.a := some 742240 }
          (fun t => (t.w.seq.wind, t.w.seq.slot.map (·.kind))) = some (.preparing, [.dispatch])) := by decide

/-- `LegStartsWhereConditionsHold`: the fetch starts at the end of the release hold; under the lockout, with a kind HELD, with a
custodian, or with its landing out of service it does not; and a custodian's RELEASE starts the next call. -/
theorem test_witness_start_conditions :
    (let wind (c : Instr) (s : State) : Option (WindState × Bool) := after c s fun t => (t.w.seq.wind, t.w.seq.permit)
     let due : State := { calling with w.seq.releaseHold := none }
     wind .releaseHoldExpiry due = some (.preparing, true)
      ∧ wind .releaseHoldExpiry { due with w.seq.lockout := true } = some (.idle, false)
      ∧ wind .releaseHoldExpiry { due with w.flt.kinds.startFail := ⟨false, .held⟩ } = some (.idle, false)
      ∧ wind .releaseHoldExpiry { due with w.seq.custodian := some 5 } = some (.idle, false)
      ∧ wind (.stateFrame 6 (.landing { landingState 8 with outOfService := true })) due = some (.idle, false)
      ∧ wind (.stateFrame 5 (.landing { landingState 0 with first.custody := .release }))
          { due with
            w.seq.custodian := some 5
            w.seq.list := [{ fetch8 with kind := .dispatch, origin := 5, level := 0, dest := some 8 }] }
          = some (.preparing, true)) := by decide

/-- A skip point of compartments 3 and 4 as a rock winder has heard it: its skip of compartment 3 with a load report. -/
def skipState (tipper hold ready : Bool) (r : LoadReport) : SkipReport :=
  { tipper := tipper, state := .ready, closed := true, stopHold := hold, chuteHold := false, doorHold := false
    doorStuck := false, skipLost := false, unready := false
    first := { comp := 3, report := r, ready := ready, present := true, fitted := true }
    second := some { comp := 4, report := .none, ready := true, present := true, fitted := true } }

/-- Its entry in the peer table, with a stop in both compartments. -/
def skipPeer (n : Nat) (tipper : Bool) (stop : Int) : Peer :=
  let kind : PointKind := if tipper then .tipper else .loader
  let at' (c : Nat) : Geometry :=
    { point := kind, comp := c, hasLanding := false, servesMen := false, fitted := true, stop := stop, down := stop
      up := stop, half := 0, zoneSpeed := 0 }
  { node := n, heard := .present, conflict := false, role := .point kind, geometry := [at' 3, at' 4]
    fitted := [(3, true), (4, true)], snapshot := some (.state (.skip (skipState tipper false true .none)))
    silence := some 3000 }

/-- A READY of a point in a compartment. -/
def readyOf (n comp : Nat) : Call := { fetch8 with kind := .ready, origin := n, level := 0, comp := comp, seq := n }

/-- A rock winder of a loader at 800,000 and a tipper at 0, with A at a depth and a READY of each skip. -/
def rock (x : Int) : State :=
  let c : Nat := if x < 400000 then 4 else 3
  { surveyed .idle x with
    cfg := some (nodeCfg .winder 1 { winderCfg with kind := .rock, comps := ⟨3, 4⟩ } Config.noPoint)
    peers := [skipPeer 30 false 800000, skipPeer 31 true 0], w.tr.x := ⟨some x, some (800000 - x)⟩
    w.tr.learned := ⟨[learnedAt 30 800000, learnedAt 31 0], [learnedAt 30 800000, learnedAt 31 0]⟩
    w.seq.motionTimer := some 0, w.seq.list := [readyOf 30 c, readyOf 31 (7 - c)] }

/-- `ServiceOrderStartsLegs`, R83's pair: the oldest READY of a loader that has a partner, passed over where its skip is 51 mm
off its stop, its compartment is the tipper's, or the stop to go to is not learned. -/
theorem test_ready_pair :
    (let pairOf (s : State) (l : List Call) : Option (Call × Call) := readyPair { s with w.seq.list := l }
     pairOf (rock 800000) [readyOf 31 4, readyOf 30 3] = some (readyOf 30 3, readyOf 31 4)
      ∧ pairOf (rock 800051) [readyOf 31 4, readyOf 30 3] = none
      ∧ pairOf (rock 800000) [{ readyOf 30 3 with mark := some 0 }, readyOf 31 4] = none
      ∧ pairOf { rock 800000 with w.tr.x := ⟨some 800000, some 800000⟩ } [readyOf 30 4, readyOf 30 3, readyOf 31 4] = none
      ∧ pairOf { rock 800000 with w.tr.learned.a := [learnedAt 30 800000] } [readyOf 30 3, readyOf 31 4] = none) := by decide

/-- `ServiceOrderStartsLegs`, the start of a pair: the loader's skip is A's and is raised, or B's. -/
theorem test_witness_pair_start :
    InWind (rock 800000) .idle ∧ FaultsSettled (rock 800000) ∧ isRock (rock 800000) = true
      ∧ readyPair (rock 800000) = some (readyOf 30 3, readyOf 31 4) ∧ commonConditions (rock 800000) = true
      ∧ convOf (rock 800000) 3 = some .a ∧ convOf (rock 0) 4 = some .b
      ∧ after .motionIntervalExpiry (rock 800000) (fun t => t.w.seq.leg.map fun g => (g.dir, g.target))
          = some (some (.up, ⟨some 0, some 800000⟩))
      ∧ after .motionIntervalExpiry (rock 0) (fun t => t.w.seq.leg.map fun g => (g.dir, g.target))
          = some (some (.down, ⟨some 800000, some 0⟩)) := by
  delta InWind Runs FaultsSettled
  decide

/-- `DriveRunningLevelIsTaken`, `SelectorIsTaken` and `InspectionPermitRisesAndFalls`: a winder in IDLE, and one in
INSPECTION that may be run UP. -/
theorem test_witness_panel :
    (winder .idle).step ≠ .off ∧ Runs (winder .idle) .winder ∧ FaultsSettled (winder .idle)
      ∧ tripLevel (winder .idle) = false
      ∧ InWind { winder .inspection with w.panel.selector := .inspection } .inspection
      ∧ FaultsSettled { winder .inspection with w.panel.selector := .inspection }
      ∧ inspectionFit { winder .inspection with w.panel.selector := .inspection } = true
      ∧ isOn (winder .inspection).w.panel.up = false ∧ memoryPermits (winder .inspection) .up = true := by
  delta InWind Runs FaultsSettled
  decide

/-- An ANSWER place with so many answers. -/
def answers (n : Nat) (s : State) : State :=
  { s with line.queue.answer := List.replicate n (droppedAnswer fetch8) }

/-- A surveyor's winder: the cage reported at level 0, with the start residual of the announced stop. -/
def atBank (stop : Int) : State :=
  { winder .idle with
    w.panel.selector := .survey
    peers :=
      [ { landingPeer 5 0 stop with
          snapshot := some (.state (.landing { landingState 0 with first.present := true })) }
      , landingPeer 6 8 742240 ] }

/-- `SurveyRequestStartsOrRefuses`: no fixed points; a residual of 300, which the window takes; one of 301. The start
position is −28,000 + 1 (self weight of 55 m). -/
theorem test_witness_survey_request :
    InWind (atBank 0) .idle ∧ FaultsSettled (atBank 0) ∧ surveyConditions { atBank 0 with peers := [] } = false
      ∧ surveyConditions (atBank (-27699)) = true ∧ surveyConditions (atBank (-27698)) = true := by
  delta InWind Runs FaultsSettled
  decide

/-- `SurveyRequestStartsOrRefuses`, the fixed points and the peer table of a service winder's survey, and each condition of R57
and R58 that refuses it: the start point not present, the bottom point's marker below its stop, a SURVEY without a fitted
bottom, a record, a hold. -/
theorem test_witness_survey_points :
    (let bank : State := atBank (-27699)
     let deep (g : Geometry) : State :=
       { bank with peers := bank.peers.take 1 ++ [{ landingPeer 6 8 742240 with geometry := [g] }] }
     let refused (s : State) : Bool := after .surveyRequest s (·.w.panel.refusal) == some .survey
     PeersSound bank ∧ (∀ q ∈ bank.peers, ∀ g ∈ q.geometry, g.stop ≤ 4000000)
      ∧ bank.peers.map (·.node) = [5, 6] ∧ (startPoints bank).a = some ⟨5, -27699, -27699, -27699⟩
      ∧ bottomPoint bank = some ⟨6, 742240, 742240, 742240⟩ ∧ refused bank = false
      ∧ refused { bank with peers := [landingPeer 5 0 (-27699), landingPeer 6 8 742240] } = true
      ∧ refused (deep { geometry 8 742240 with down := 742241 }) = true
      ∧ refused (deep { geometry 8 742240 with fitted := false }) = true
      ∧ refused { bank with w.seq.record := some (record8 0) } = true
      ∧ refused { bank with w.flt.alarmSet := [6] } = true) := by
  delta PeersSound
  decide

/-- What a survey start leaves: the list and the answers, the learned tables, the expectation lists, and the classes. -/
theorem test_survey_start :
    (let bank (stop : Int) : State :=
       { atBank stop with
         peers :=
           (atBank stop).peers
             ++ [ landingPeer 7 16 1513380
                , { landingPeer 8 24 742240 with geometry := [{ geometry 24 742240 with hasLanding := false }] }]
         w.seq.list := [fetch0], w.tr.cls := ⟨.men, .fixed⟩, w.tr.learned := ⟨[learnedAt 7 1513380], []⟩ }
     let start (stop : Int) : State := (after .surveyRequest (bank stop) id).getD State.reset
     ((start (-27699)).w.seq.list = [] ∧ (start (-27699)).line.queue.answer = [droppedAnswer fetch0]
        ∧ (start (-27699)).w.tr.cls = ⟨.empty, .fixed⟩
        ∧ (start (-27699)).w.seq.survey.lists.both (·.map (·.node)) = ⟨[6, 8, 7], []⟩
        ∧ (start (-27699)).w.tr.learned = ⟨[learnedAt 5 (-27699)], []⟩)
      ∧ ((start (-27698)).w.seq.wind = .idle ∧ (start (-27698)).line.queue.answer = [droppedAnswer fetch0]
        ∧ (start (-27698)).w.tr.learned = ⟨[], []⟩)
      ∧ (after .surveyRequest (answers 8 (bank (-27698))) fun t => (t.w.seq.wind, t.w.seq.list.map (·.mark.isSome)))
          = some (.idle, [true])) := by decide +kernel

/-- A rock winder in IDLE with both skips reported at their starts: A at the tipper, B at the loader. -/
def rockBank (loader tipper : Int) : State :=
  { rock 0 with
    peers := [skipPeer 30 false loader, skipPeer 31 true tipper], w.panel.selector := .survey, w.seq.list := []
    w.tr.learned := ⟨[], []⟩ }

/-- `SurveyRequestStartsOrRefuses`, a rock winder: B's start position is −28,000 + 2,116,884 (40 turns of each of three layers and
2.07 of the fourth) + 1,886 of self weight; residuals of 300, and one of 301. -/
theorem test_rock_survey :
    (let start (loader : Int) : State := (after .surveyRequest (rockBank loader (-27999)) id).getD State.reset
     InWind (rockBank 2091070 (-27999)) .idle ∧ FaultsSettled (rockBank 2091070 (-27999))
      ∧ PeersSound (rockBank 2091070 (-27999))
      ∧ ((start 2091070).w.seq.wind = .survey ∧ (start 2091070).w.tr.origin.map (·.q) = some ⟨0, 300⟩
        ∧ (start 2091070).w.seq.survey.lists.both (·.map (·.node)) = ⟨[30], [31]⟩
        ∧ (start 2091070).w.tr.learned = ⟨[learnedAt 31 (-27999)], [learnedAt 30 2091070]⟩)
      ∧ ((start 2091071).w.seq.wind = .idle ∧ (start 2091071).w.seq.survey.outcome = .refMismatch)) := by
  delta InWind Runs FaultsSettled PeersSound
  decide +kernel

theorem test_survey_start_window :
    after .surveyRequest (atBank (-27699)) (·.w.seq.wind) = some .survey
      ∧ after .surveyRequest (atBank (-27698)) (·.w.seq.survey.outcome) = some .refMismatch := by decide +kernel

/-- `ResumeIsRefusedOrStartsTheLeg`: a count of 3; a record whose target is 242 m away; one at it, 50 mm off; a PARKED
record. -/
theorem test_witness_resume :
    InWind (suspended 500000 (.moving (moving 2))) .suspended ∧ FaultsSettled (suspended 500000 (.moving (moving 2)))
      ∧ (suspended 500000 (.moving (moving 2))).w.seq.custodian = none
      ∧ resumeRefusal (suspended 500000 (.moving (moving 3)))
          { cause := .driveLost, phase := .full, x := ⟨some 500000, none⟩, v := ⟨0, 0⟩, kind := .moving (moving 3) } .same
          = some .count
      ∧ resumeRefusal (suspended 500000 (.moving (moving 2)))
          { cause := .driveLost, phase := .full, x := ⟨some 500000, none⟩, v := ⟨0, 0⟩, kind := .moving (moving 2) } .same
          = none
      ∧ formTarget (suspended 500000 (.moving (moving 2))) (moving 2) .same = some (.level 8)
      ∧ atTargets (suspended 500000 (.moving (moving 2))) ⟨some 742240, none⟩ = false
      ∧ atTargets (suspended 742290 (.moving (moving 2))) ⟨some 742240, none⟩ = true
      ∧ resumeRefusal (suspended 742240 (.parked ⟨8, 6⟩))
          { cause := .driveLost, phase := .full, x := ⟨some 742240, none⟩, v := ⟨0, 0⟩, kind := .parked ⟨8, 6⟩ } .invalid
          = none := by
  delta InWind Runs FaultsSettled
  decide

/-- `CancelDropsCalls`: IDLE with a call; SUSPENDED with room for exactly one answer, and with none. -/
theorem test_witness_cancel :
    InWind { surveyed .idle 500000 with w.seq.list := [fetch8] } .idle
      ∧ InWind (answers 7 (suspended 500000 (.moving (moving 0)))) .suspended
      ∧ (answers 7 (suspended 500000 (.moving (moving 0)))).line.queue.answer.length
          + (recordCalls (suspended 500000 (.moving (moving 0))).w.seq.record).length ≤ 8
      ∧ 8 < (answers 8 (suspended 500000 (.moving (moving 0)))).line.queue.answer.length
          + (recordCalls (suspended 500000 (.moving (moving 0))).w.seq.record).length := by
  delta InWind Runs
  decide

/-- A winder in TRIPPED whose ENCODER is HELD. -/
def tripped : State :=
  let s := winder .tripped
  { s with w.flt.powerUpTrip := true, w.flt.kinds.encoder := ⟨false, .held⟩, w.flt.trip := true }

/-- `FaultResetClearsHeldKinds`: a reset that leaves TRIPPED. -/
theorem test_witness_fault_reset :
    Runs tripped .winder ∧ faultState tripped .encoder = .held ∧ condition tripped .encoder = false
      ∧ (∃ t, exec .faultReset tripped = .next t ∧ tripLevel t = false ∧ t.w.seq.wind = .idle) :=
  ⟨⟨rfl, rfl⟩, rfl, rfl, _, rfl, by decide⟩

/-- The latest report's reference, after a command. -/
def reported (c : Instr) (s : State) : Option (Option (WindState × Nat × Dir)) :=
  after c s fun t => (latestReport t).map fun r => (r.motion.wind, r.status.refSpeed, r.status.refDir)

/-- R111: a report carries the reference as the latest sample set it, at the interval and at a lost drive, though the
reference itself is withdrawn with PERMIT. -/
theorem test_reported_reference :
    (let s : State :=
      { underWay .running with
        w.env.shownSpeed := 12000, w.env.shownDir := .down, w.seq.motionTimer := some 0 }
     reported .motionIntervalExpiry s = some (some (.running, 12000, .down))
      ∧ reported (.driveRunningChange false) s = some (some (.suspended, 12000, .down))
      ∧ after (.driveRunningChange false) s (fun t => (t.w.env.refSpeed, t.w.env.refDir)) = some (0, .none)) := by decide

/-- `ServiceOrderStartsLegs`, the commands that make a pair due: a fault reset that clears the lockout, and the second
READY. -/
theorem test_witness_pair_due :
    (let locked : State := { rock 800000 with w.seq.lockout := true }
     let one : State := { rock 800000 with w.seq.list := [readyOf 30 3] }
     let started (c : Instr) (s : State) : Option (WindState × List Call × Bool) :=
       after c s (fun t => (t.w.seq.wind, t.w.seq.slot, t.pins.permit))
     FaultsSettled locked ∧ FaultsSettled one ∧ HeardFrom one 31 ∧ (peerOf one 31).heard = .present
      ∧ one.config.node = 1
      ∧ callEntry one 31 (.ready 4) = some { readyOf 31 4 with seq := 1 }
      ∧ verdictOn one { readyOf 31 4 with seq := 1 } = .accepted
      ∧ readyPair { one with w.seq.list := [readyOf 30 3, { readyOf 31 4 with seq := 1 }] }
          = some (readyOf 30 3, { readyOf 31 4 with seq := 1 })
      ∧ started .motionIntervalExpiry locked = some (.idle, [], false)
      ∧ started .faultReset locked = some (.preparing, [readyOf 30 3, readyOf 31 4], true)
      ∧ started (.callFrame 31 ⟨1, .ready 4⟩) one
          = some (.preparing, [readyOf 30 3, { readyOf 31 4 with seq := 1 }], true)) := by
  delta FaultsSettled HeardFrom Receives
  decide

/-- A record of a lost drive. -/
def lost (k : RecordKind) : Record :=
  { cause := .driveLost, phase := .full, x := ⟨none, none⟩, v := ⟨0, 0⟩, kind := k }

/-- The refusal of a resume request of the record of the leg to level 8. -/
def refusalOf (f : State → State) (cause : Cause) (r : ResumePosition) : Option ResumeReason :=
  resumeRefusal (f (suspended 500000 (.moving (moving 0)))) { lost (.moving (moving 0)) with cause := cause } r

/-- `ResumeIsRefusedOrStartsTheLeg`: each reason but COUNT, its condition broken alone. -/
theorem test_witness_resume_reasons :
    refusalOf id .driveLost .same = none
      ∧ refusalOf (fun s => { s with w.panel.selector := .inspection }) .driveLost .same = some .selector
      ∧ refusalOf (fun s => { s with w.flt.kinds.startFail := ⟨false, .held⟩ }) .driveLost .same = some .fault
      ∧ refusalOf (fun s => { s with w.panel.driveRunning := some true }) .driveLost .same = some .cause
      ∧ refusalOf (fun s => { s with w.flt.kinds.tracking := ⟨false, .active⟩ }) (.fault .tracking) .same = some .cause
      ∧ refusalOf id (.node 9) .same = some .cause ∧ refusalOf id (.node 6) .same = none
      ∧ refusalOf (fun s => { s with w.tr.validated := false }) .selector .same = some .conditions
      ∧ refusalOf (fun s => { s with peers := [{ landingPeer 6 8 742240 with heard := .silent }] }) .driveLost .same
          = some .conditions
      ∧ refusalOf (fun s => { s with w.tr.learned := ⟨[], []⟩ }) .driveLost .same = some .noTarget
      ∧ refusalOf id .driveLost .invalid = some .noTarget := by decide

/-- `ResumeIsRefusedOrStartsTheLeg`, the nearest landing: 2,050 mm from A and 2,049, ahead and back; a rock winder
has none. -/
theorem test_witness_nearest :
    (let at' (x : Int) : State := suspended x (.moving (moving 0))
     resumeRefusal (at' 2204360) (lost (.moving (moving 0))) .nearestAhead = none
      ∧ formTarget (at' 2204360) (moving 0) .nearestAhead = some (.level 24)
      ∧ resumeRefusal (at' 2204361) (lost (.moving (moving 0))) .nearestAhead = some .noTarget
      ∧ formTarget (at' 744290) (moving 0) .nearestBack = some (.level 8)
      ∧ formTarget (at' 744289) (moving 0) .nearestBack = some (.level 0)
      ∧ resumeRefusal (rock 500000) (lost (.moving (moving 0))) .nearestBack = some .noTarget) := by decide

/-- A rock winder's record of its pair. -/
def movingPair : MovingRecord := { moving 0 with dir := .up, target := .points ⟨31, 30⟩ }

/-- The rock winder suspended with it, A at a depth. -/
def suspendedRock (x : Int) : State :=
  { rock x with w.seq.wind := .suspended, w.seq.list := [], w.seq.record := some (lost (.moving movingPair)) }

/-- `ResumeIsRefusedOrStartsTheLeg`, a rock winder: A nearer the loader's stop at 800,000 is raised, B nearer lowers A, and
a point SILENT or without a learned depth refuses. -/
theorem test_witness_resume_pair :
    (let led (s : State) : Option (WindState × Option Dir) :=
       after (.resumeRequest true false false) s (fun t => (t.w.seq.wind, t.w.seq.leg.map (·.dir)))
     InWind (suspendedRock 500000) .suspended ∧ FaultsSettled (suspendedRock 500000)
      ∧ led (suspendedRock 500000) = some (.preparing, some .up)
      ∧ led (suspendedRock 300000) = some (.preparing, some .down)
      ∧ resumeRefusal
          { suspendedRock 500000 with
            peers := [{ skipPeer 30 false 800000 with heard := .silent }, skipPeer 31 true 0] }
          (lost (.moving movingPair)) .same = some .conditions
      ∧ resumeRefusal { suspendedRock 500000 with w.tr.learned.a := [] } (lost (.moving movingPair)) .same
          = some .noTarget) := by
  delta InWind Runs FaultsSettled
  decide

/-- `CancelDropsCalls`: an ANSWER queue with room for one of two entries; SUSPENDED with and without room. -/
theorem test_witness_cancel_answers :
    (let s (n : Nat) : State :=
      answers n { surveyed .idle 500000 with w.seq.list := [fetch8, fetch0], w.seq.lockout := true }
     after .cancel (s 7) (fun t => (t.w.seq.list.map fun e => (e.origin, e.mark.isSome), t.w.seq.wind))
        = some ([(5, true)], .idle)
      ∧ after .cancel (s 7) (·.line.queue.answer) = some (List.replicate 8 (droppedAnswer fetch8))
      ∧ after .cancel (s 6) (fun t => (t.w.seq.list, t.line.queue.answer.drop 7)) = some ([], [droppedAnswer fetch0])
      ∧ after .cancel (answers 7 (suspended 500000 (.moving (moving 0)))) (fun t => (t.w.seq.wind, t.w.seq.record.isSome))
          = some (.idle, false)
      ∧ after .cancel (answers 8 (suspended 500000 (.moving (moving 0))))
          (fun t => (t.w.seq.wind, t.w.panel.refusal)) = some (.suspended, .cancel)) := by decide

/-- `FaultResetClearsHeldKinds`: TRIPPED is left for IDLE, and with a record for SUSPENDED. -/
theorem test_witness_fault_reset_record :
    FaultsSettled tripped ∧ tripped.w.seq.wind = .tripped ∧ tripped.w.tr.stallRaised = false
      ∧ tripped.w.seq.record = none
      ∧ after .faultReset { tripped with w.seq.record := some (lost (.moving (moving 0))) } (·.w.seq.wind)
          = some .suspended := by
  delta FaultsSettled
  decide

/-- The statements of delivered frames: a node of each role hears node 6 or 1, and the first and last numbers. -/
theorem test_witness_heard :
    HeardFrom (surveyed .idle 742240) 6 ∧ HeardFrom (landing .noCage .idle none 0 0) 1
      ∧ HeardFrom (skipPoint .loader .loaded .idle) 1 ∧ HeardFrom (winder .idle) 40 := by
  delta HeardFrom Receives
  decide

/-- `HearingAndSilenceMoveTheEntry` and `OwnNumberHeardFaults`: a delivered frame, and one with the own number. -/
theorem test_witness_own_number :
    deliveredFrom (.alarmFrame 6 1) = some 6
      ∧ deliveredFrom (.markerFrame 1 1 4) = some (winder .idle).config.node ∧ Receives (winder .idle)
      ∧ WellFormed.nodeOk (winder .idle).config.node = true ∧ hasRole (winder .idle) .winder = true
      ∧ deliveredFrom (.alarmFrame 6 1) = some (landing .noCage .idle none 0 0).config.node := by
  delta Receives
  decide

/-- `AlarmFrameTripsAndCaptures`: a mask of compartment 1, and one of compartments 3 and 4. -/
theorem test_witness_alarm :
    Tracks (winder .idle) ∧ coversWinder (winder .idle) 1#4 = true ∧ coversWinder (winder .idle) 12#4 = false := by
  delta Tracks
  decide

/-- `MarkerFrameCorrectsK`: a compartment of neither conveyance; a pass of age 249 located 241 samples back would lie
beyond the history, so the ages are 4 and 248; deviations of 500 and 501. -/
theorem test_witness_marker :
    convOf (surveyed .running 742240) 3 = none ∧ convOf (surveyed .running 742240) 1 = some .a
      ∧ (surveyed .running 742240).w.tr.validated = true ∧ (peerOf (surveyed .running 742240) 6).conflict = false
      ∧ learnedOf (surveyed .running 742240) .a 6 = some (learnedAt 6 742240)
      ∧ learnedOf (surveyed .running 742240) .a 9 = none
      ∧ (surveyed .running 741740).w.tr.history[(4 + 6) / 2]?
          = some ⟨some ⟨741740, 1558260⟩, ⟨.down, .up⟩⟩
      ∧ (surveyed .running 741740).w.tr.history[(249 + 6) / 2]?
          = some ⟨some ⟨741740, 1558260⟩, ⟨.down, .up⟩⟩
      ∧ (742240 - 741740 : Int).natAbs ≤ (wcfg (surveyed .running 741740)).markerWindow
      ∧ ¬((742240 - 741739 : Int).natAbs ≤ (wcfg (surveyed .running 741739)).markerWindow) := by decide +kernel

theorem test_marker_window :
    after (.markerFrame 6 1 249) (surveyed .running 741740) (·.w.tr.k) = some ⟨500, 0⟩
      ∧ after (.markerFrame 6 1 249) (surveyed .running 741739) (·.w.tr.k) = some ⟨0, 0⟩
      ∧ after (.markerFrame 6 1 249) (surveyed .running 741739) (·.w.flt.raised.tracking) = some true
      ∧ after (.markerFrame 6 1 250) (surveyed .running 741740) (·.w.tr.k) = some ⟨0, 0⟩ := by decide +kernel

/-- A leg to level 16 that expects level 8, with A at a depth. -/
def expecting (x : Int) (armed : Bool) : State :=
  { underWay .running with
    w.tr.origin := some { n0 := 0, q := ⟨x + 27999, 200000⟩ }
    w.tr.history := List.replicate 128 ⟨some ⟨x, 0⟩, ⟨.down, .up⟩⟩
    w.seq.leg := some { leg8 .call with target := ⟨some 1513380, none⟩ }
    w.tr.expect := ⟨some { node := 6, depth := 742240, armed := armed }, none⟩ }

/-- `MarkerFrameCorrectsK`, the expectation: 1,001 and 1,000 mm before its depth and beyond it, then its pass armed and
not. -/
theorem test_witness_expectation :
    InWind (expecting 741239 false) .running
      ∧ expectationGone (expecting 741239 false) .a ⟨6, 742240, false⟩ = false
      ∧ after .positionSample (expecting 741239 false) (·.w.tr.expect.a) = some (some ⟨6, 742240, false⟩)
      ∧ after .positionSample (expecting 741240 false) (·.w.tr.expect.a) = some (some ⟨6, 742240, true⟩)
      ∧ after .positionSample (expecting 743240 true) (·.w.flt.raised.markerMissed) = some false
      ∧ after .positionSample (expecting 743241 true) (·.w.flt.raised.markerMissed) = some true := by
  delta InWind Runs
  decide

theorem test_witness_expected_pass :
    after (.markerFrame 6 1 4) (expecting 741740 true) (fun t => (t.w.seq.wind, t.w.tr.expect.a))
        = some (.running, some ⟨7, 1513380, false⟩)
      ∧ after (.markerFrame 6 1 4) (expecting 741740 false) (·.w.tr.expect.a) = some (some ⟨6, 742240, false⟩)
      ∧ nextExpected (expecting 741740 true) .a 2206410 = none := by decide

/-- `MarkerFrameCorrectsK`, the expectation's life: RUNNING is entered with the next point ahead of X, STOPPING keeps it and arms
it, and the leg's end clears it. -/
theorem test_witness_expectation_set :
    (let shown (c : Instr) (s : State) : Option (WindState × Option Expectation) :=
       after c s fun t => (t.w.seq.wind, t.w.tr.expect.a)
     let stopping : State := { expecting 741240 false with w.seq.wind := .stopping }
     shown .positionSample (handshake 94) = some (.running, some ⟨6, 742240, false⟩)
      ∧ shown .positionSample { handshake 94 with w.tr.learned := ⟨[], []⟩ } = some (.running, none)
      ∧ shown .positionSample stopping = some (.stopping, some ⟨6, 742240, true⟩)
      ∧ shown (.driveRunningChange false) (expecting 741240 false) = some (.suspended, none)) := by decide

/-- `MarkerFrameCorrectsK`, the RESUMED cap of a leg begun by a resume: lifted by an accepted pass, at once and at its delivery
moment, kept by a refused one, by one of no learned point and by a sample, and kept in a leg begun by a call. -/
theorem test_witness_resumed_cap :
    (let run (k : LegKind) (x : Int) : State :=
       { expecting x true with
         w.seq.leg := some { leg8 k with target := ⟨some 1513380, none⟩ }
         w.env.capResumed := some ⟨1000, 0, 1000, true, false⟩
         line.rxMarkers := [{ sender := 6, comp := 1, age := 4, due := 0 }] }
     let left (c : Instr) (s : State) : Option (WindState × Option Nat) :=
       after c s fun t => (t.w.seq.wind, t.w.env.capResumed.map (·.value))
     Runs (run .resume 741740) .winder ∧ inResumedLeg (run .resume 741740) = true
      ∧ left (.markerFrame 6 1 4) (run .resume 741740) = some (.running, none)
      ∧ left .markerDeliveryMoment (run .resume 741740) = some (.running, none)
      ∧ left (.markerFrame 6 1 4) (run .resume 741739) = some (.running, some 1000)
      ∧ left (.markerFrame 9 1 4) (run .resume 741740) = some (.running, some 1000)
      ∧ left .positionSample (run .resume 741740) = some (.running, some 1000)
      ∧ left (.markerFrame 6 1 4) (run .call 741740) = some (.running, some 1000)) := by
  delta Runs
  decide

/-- A survey under way, the pointer at level 8. -/
def inSurveyRun (x : Int) : State :=
  { surveyed .survey x with
    w.panel.selector := .survey, w.tr.validated := false
    w.seq.survey :=
      { outcome := .inProgress, failing := none, start := ⟨some ⟨5, 1200, 1200, 1200⟩, none⟩, bottom := none
        lists := ⟨[⟨6, 742240, 742240, 742240⟩, ⟨8, 2206410, 2206410, 2206410⟩], []⟩, pointer := ⟨0, 0⟩ } }

/-- `SurveyPassIsJudged`: a point that is not the pointer's; the pointer's, 1,000 and 1,001 mm off. -/
theorem test_witness_survey_pass :
    InWind (inSurveyRun 741240) .survey ∧ surveying (inSurveyRun 741240) = true
      ∧ convOf (inSurveyRun 741240) 1 = some .a
      ∧ pointerPoint (inSurveyRun 741240).w.seq.survey .a = some ⟨6, 742240, 742240, 742240⟩
      ∧ ((inSurveyRun 741240).w.seq.survey.start.get .a).any (fun q => q.node == 6) = false
      ∧ ((inSurveyRun 741240).w.seq.survey.start.get .a).any (fun q => q.node == 8) = false
      ∧ locateSurveyPass (inSurveyRun 741240) .a 4 = some 741240
      ∧ locateSurveyPass (inSurveyRun 741239) .a 4 = some 741239 := by
  delta InWind Runs
  decide

/-- The survey with a point listed for B too, at the residuals of a position. -/
def surveyAt (a b : Int) : State :=
  let s := inSurveyRun 741240
  { s with
    w.tr.origin := some { n0 := 0, q := ⟨a + 27999, b - 2095113⟩ }
    w.seq.survey.lists.b := [⟨8, 2206410, 2206410, 2206410⟩], w.panel.driveRunning := some true }

/-- `SurveyPassIsJudged`, MISSING: A at 1,000 and 1,001 mm below its pointer's point, B so above its own. -/
theorem test_witness_survey_missing :
    InWind (surveyAt 743240 2295113) .survey ∧ surveying (surveyAt 743240 2295113) = true
      ∧ pointerPoint (surveyAt 743240 2295113).w.seq.survey .b = some ⟨8, 2206410, 2206410, 2206410⟩
      ∧ after .positionSample (surveyAt 743240 2205410) (fun t => (t.w.tr.x, t.w.seq.survey.outcome))
          = some (⟨some 743240, some 2205410⟩, .inProgress)
      ∧ after .positionSample (surveyAt 743241 2205409) (·.w.seq.survey.failing) = some (some (6, .a))
      ∧ after .positionSample (surveyAt 743240 2205409) (·.w.seq.survey.failing) = some (some (8, .b)) := by
  delta InWind Runs
  decide

/-- `CompletedLegEnds`, the completion flag in SURVEY: with the bottom point at 742,240 learned, 50 mm off it and 51; not learned,
at its announced stop and 1,000 mm. -/
theorem test_witness_survey_completion :
    (let run (a : Int) (learned : Bool) : State :=
       let s := inSurveyRun 741240
       { s with
         w.tr.origin := some { n0 := 0, q := ⟨a + 27999, 200000⟩ }
         w.tr.learned.a := if learned then s.w.tr.learned.a else []
         w.seq.survey.bottom := some ⟨6, 742240, 742240, 742240⟩
         w.seq.survey.lists.a := [], w.panel.driveRunning := some true }
     let flag (s : State) : Option (WindState × Bool × Timer) :=
       after .positionSample s fun t => (t.w.seq.wind, t.w.env.completion, t.w.seq.completionWait)
     InWind (run 0 true) .survey ∧ (run 0 true).w.seq.leg = none
      ∧ flag (run 742190 true) = some (.survey, true, some 3000) ∧ flag (run 742189 true) = some (.survey, false, none)
      ∧ flag (run 743240 false) = some (.survey, true, some 3000) ∧ flag (run 742240 false) = some (.survey, false, none)) := by
  delta InWind Runs
  decide

/-- `SurveyPassIsJudged`, where a failed survey leads: STOPPING with PERMIT as before while the drive is RUNNING, IDLE without,
INSPECTION with the selector there, TRIPPED by an ALARM; with no record. -/
theorem test_witness_survey_failed :
    (let run (on : Bool) : State :=
       { surveyAt 743241 2295113 with w.seq.permit := true, w.panel.driveRunning := some on }
     let leads (c : Instr) (s : State) : Option (WindState × Bool × Bool) :=
       after c s fun t => (t.w.seq.wind, t.w.seq.permit, t.w.seq.record.isSome)
     (run true).w.seq.leg = none ∧ (run true).w.seq.restoration = none
      ∧ leads .positionSample (run true) = some (.stopping, true, false)
      ∧ leads .positionSample (run false) = some (.idle, false, false)
      ∧ leads (.modeSelectorChange true false false) (run false) = some (.idle, false, false)
      ∧ leads .positionSample { run false with w.panel.selector := .inspection } = some (.inspection, false, false)
      ∧ leads (.alarmFrame 6 1) (run true) = some (.tripped, false, false)) := by decide

/-- `SurveyPassIsJudged`, ABORTED: each cause. -/
theorem test_witness_survey_aborted :
    isOn (surveyAt 0 0).w.panel.driveRunning = true ∧ (surveyAt 0 0).w.env.completion = false
      ∧ coversWinder (surveyAt 0 0) 1 = true ∧ (wcfg (surveyAt 0 0)).reactions.alarm = .tripLatched
      ∧ isMember (surveyAt 0 0) (peerOf (surveyAt 0 0) 6) = true
      ∧ (peerOf (surveyAt 0 0) 6).role = .point (pointOfState (.landing { landingState 8 with stopHold := true }))
      ∧ showsHold (.landing { landingState 8 with stopHold := true }) = true
      ∧ enclosureClosed (.landing { landingState 8 with gate := .opened }) = false
      ∧ after (.stateFrame 6 (.landing { landingState 8 with gate := .opened })) (surveyAt 0 0) (·.w.seq.survey.outcome)
          = some .aborted := by decide

/-- `CompletedLegEnds`, the end of a survey with both points passed, and with the second not reached. -/
theorem test_witness_survey_end :
    (let s (i : Nat) : State :=
      { inSurveyRun 2206410 with w.seq.survey.pointer := ⟨i, 0⟩, w.seq.completionWait := some 0, w.env.completion := true }
     InWind (s 2) .survey ∧ surveying (s 2) = true ∧ pointerPoint (s 2).w.seq.survey .a = none
      ∧ pointerPoint (s 2).w.seq.survey .b = none
      ∧ after .completionWaitExpiry (s 2) (fun t => (t.w.seq.survey.outcome, t.w.tr.validated)) = some (.complete, true)
      ∧ after .completionWaitExpiry (s 1) (fun t => (t.w.seq.survey.outcome, t.w.seq.survey.failing))
          = some (.missing, some (8, .a))) := by
  delta InWind Runs
  decide

/-- `CompletedLegEnds`, the state after the survey: IDLE with PERMIT withdrawn, PREPARING for a call, INSPECTION by the selector. -/
theorem test_witness_state_after_survey :
    (let s : State :=
       { inSurveyRun 2206410 with
         w.seq.survey.pointer := ⟨2, 0⟩, w.seq.completionWait := some 0, w.env.completion := true, w.seq.permit := true }
     let ends (s : State) : Option (WindState × Bool) :=
       after .completionWaitExpiry s fun t => (t.w.seq.wind, t.w.seq.permit)
     ends s = some (.idle, false) ∧ ends { s with w.panel.selector := .inspection } = some (.inspection, false)
      ∧ ends { s with w.panel.selector := .normal, w.seq.list := [fetch8] } = some (.preparing, true)
      ∧ ends { s with w.flt.alarmSet := [6] } = some (.tripped, false)) := by decide

/-- `SurveyPassIsJudged`, R67's entry: the pass located at 741,240 going DOWN, of a point announced at DOWN 742,240, UP 742,740
and stop 743,240; and, of the skip B going UP, one located at its UP. -/
theorem test_learned_entry :
    (let s : State :=
       { inSurveyRun 741240 with
         w.seq.survey.lists := ⟨[⟨6, 743240, 742240, 742740⟩], [⟨6, 1559760, 1558260, 1558760⟩]⟩ }
     after (.markerFrame 6 1 4) s (fun t => (t.w.tr.learned.a.find? (·.node == 6), t.w.seq.survey.pointer))
        = some (some ⟨6, 741240, 741740, 742240⟩, ⟨1, 0⟩)
      ∧ after (.markerFrame 6 2 4) s (fun t => (t.w.tr.learned.b, t.w.seq.survey.pointer))
          = some ([⟨6, 1558260, 1558760, 1559760⟩], ⟨0, 1⟩)) := by decide +kernel

theorem test_survey_pass_window :
    after (.markerFrame 6 1 4) (inSurveyRun 741240) (·.w.seq.survey.pointer.a) = some 1
      ∧ after (.markerFrame 6 1 4) (inSurveyRun 741239) (·.w.seq.survey.outcome) = some .deviation
      ∧ after (.markerFrame 8 1 4) (inSurveyRun 741240) (·.w.seq.survey.outcome) = some .order := by decide +kernel

/-- The cage parked at level 8 in IDLE. -/
def parkedAt8 : State := { surveyed .idle 742240 with w.seq.parked := some (8, 6) }

/-- A claim of level 8's landing. -/
def claim : StateReport := .landing { landingState 8 with state := .claiming, first.custody := .claim }

/-- `StateFrameBecomesTheSnapshot`: a claim that is taken. -/
theorem test_witness_claim :
    InWind parkedAt8 .idle ∧ HeardFrom parkedAt8 6 ∧ parkedAt8.w.seq.custodian = none
      ∧ parkedAt8.w.seq.parked = some (8, 6)
      ∧ after (.stateFrame 6 claim) parkedAt8 (fun t => (t.w.seq.wind, t.w.seq.custodian)) = some (.idle, some 6) := by
  delta InWind Runs HeardFrom Receives
  decide

/-- `StateFrameBecomesTheSnapshot`: a RELEASE with the gates locked and not, and an alarm at the winder. -/
theorem test_witness_release :
    landingComp { landingState 8 with first.custody := .release } 1
        = some { (landingState 8).first with custody := .release }
      ∧ after (.stateFrame 6 (.landing { landingState 8 with first.custody := .release }))
          { parkedAt8 with w.seq.custodian := some 6 } (fun t => (t.w.seq.wind, t.w.seq.custodian, t.w.seq.last))
          = some (.idle, none, some 6)
      ∧ after (.stateFrame 6 (.landing { landingState 8 with gate := .closed, first.custody := .release }))
          { parkedAt8 with w.seq.custodian := some 6 } (fun t => (t.w.seq.wind, t.w.seq.custodian))
          = some (.idle, some 6)
      ∧ after (.stateFrame 6 (.landing { landingState 8 with alarm := true, mask := 1 })) parkedAt8 (·.w.flt.alarmSet)
          = some [6] := by decide

/-- `StateFrameBecomesTheSnapshot`: a load report outside IDLE is ignored. -/
theorem test_load_report_outside_idle :
    after (.stateFrame 30 (.skip (skipState false false true .full))) { rock 800000 with w.seq.wind := .suspended }
        (·.w.tr.cls.a) = some .empty
      ∧ after (.stateFrame 30 (.skip (skipState false false true .full))) { rock 800000 with w.seq.wind := .tripped }
        (·.w.tr.cls.a) = some .empty := by decide

/-- `StateFrameBecomesTheSnapshot`: FULL at the loader 50 mm off its stop and 51, EMPTY at the tipper, and READY
withdrawn by STOP_HOLD. -/
theorem test_witness_skip_state :
    InWind (rock 800050) .idle ∧ (rock 800050).w.tr.validated = true ∧ (peerOf (rock 800050) 30).conflict = false
      ∧ skipComp (skipState false false true .full) 3 = some (skipState false false true .full).first
      ∧ after (.stateFrame 30 (.skip (skipState false false true .full))) (rock 800050) (·.w.tr.cls.a) = some .full
      ∧ after (.stateFrame 30 (.skip (skipState false false true .full))) (rock 800051) (·.w.tr.cls.a) = some .empty
      ∧ after (.stateFrame 31 (.skip (skipState true false true .empty)))
          { rock 0 with w.tr.cls := ⟨.full, .full⟩ } (·.w.tr.cls.a) = some .empty
      ∧ after (.stateFrame 31 (.skip (skipState true false true .full)))
          { rock 0 with w.tr.cls := ⟨.unknown, .full⟩ } (·.w.tr.cls.a) = some .unknown
      ∧ after (.stateFrame 30 (.skip (skipState false true false .full))) (rock 800050) (·.w.seq.list)
          = some [readyOf 31 4] := by
  delta InWind Runs
  decide

/-- Level 8's landing reports shaft work. -/
def worked : StateReport := .landing { landingState 8 with work := true }

/-- A winder under way at a depth and speed that holds so many other zones. -/
def withZones (x v : Int) (n : Nat) : State :=
  { underWay .running with
    w.tr.x.a := some x, w.tr.v.a := v, w.tr.dir := ⟨.down, .up⟩
    w.env.zones := (List.range n).map fun i =>
      { node := 20 + i, comp := 1, centre := 0, upper := -1, lower := 1, speed := 400 } }

/-- `StateFrameBecomesTheSnapshot`, the zones: 3 m to each side of 742,240 at 2 m/s, admitted from afar or as the 28th,
too late at 12 m/s from 40 m and with 28 held, and taken out. -/
theorem test_witness_zones :
    (let zone : Zone := ⟨6, 1, 742240, 739240, 745240, 2000⟩
     geometryOf (peerOf (withZones 500000 12000 0) 6) 1 = some (geometry 8 742240)
      ∧ (geometryOf (peerOf (withZones 500000 12000 0) 6) 2).isNone = true
      ∧ zoneValue (withZones 500000 12000 0) zone = some 20000
      ∧ after (.stateFrame 6 worked) (withZones 500000 12000 0) (·.w.env.zones) = some [zone]
      ∧ after (.stateFrame 6 worked) (withZones 700000 12000 0) (fun t => (t.w.env.zones, t.w.flt.raised.lateRestriction))
          = some ([], true)
      ∧ after (.stateFrame 6 worked) (withZones 700000 0 27) (·.w.env.zones.length) = some 28
      ∧ after (.stateFrame 6 worked) (withZones 700000 0 28) (·.w.flt.raised.lateRestriction) = some true
      ∧ after (.stateFrame 6 (.landing (landingState 8))) { withZones 0 0 0 with w.env.zones := [zone] } (·.w.env.zones)
          = some []) := by decide

/-- `StateFrameBecomesTheSnapshot`, the zones of a landing announced in B's compartment and in both: each is formed there, the two in
depth order, that of A first where 27 others leave room for one. -/
theorem test_witness_zones_of_both :
    (let at' (gs : List Geometry) (n : Nat) : State :=
       { withZones 500000 0 n with peers := [{ landingPeer 6 8 742240 with geometry := gs }], w.tr.learned := ⟨[], []⟩ }
     let inA : Geometry := geometry 8 742240
     let inB : Geometry := { geometry 8 700000 with comp := 2 }
     let za : Zone := ⟨6, 1, 742240, 739240, 745240, 2000⟩
     let zb : Zone := ⟨6, 2, 700000, 697000, 703000, 2000⟩
     let zones (s : State) : Option (List Zone) := after (.stateFrame 6 worked) s (·.w.env.zones)
     zones (at' [inB] 0) = some [zb] ∧ zones (at' [inA, inB] 0) = some [zb, za] ∧ zones (at' [] 0) = some []
      ∧ (zones (at' [inA, inB] 27)).map (·.filter (·.node == 6)) = some [za]
      ∧ after (.stateFrame 6 worked) (at' [inA, inB] 27) (·.w.flt.raised.lateRestriction) = some true) := by decide

/-- `CallFrameIsAnswered`: one call of each verdict, with room for one answer. -/
theorem test_witness_call :
    Runs (answers 7 parkedAt8) .winder ∧ (answers 7 parkedAt8).line.queue.answer.length < 8
      ∧ (callEntry parkedAt8 7 (.fetch 16)).map (verdictOn (hear 7 parkedAt8)) = some .accepted
      ∧ (callEntry parkedAt8 6 (.fetch 8)).map (verdictOn (hear 6 parkedAt8)) = some .complete
      ∧ (callEntry parkedAt8 6 (.dispatch 8 24 .men)).map (verdictOn (hear 6 parkedAt8)) = some (.refused .notCustodian)
      ∧ (callEntry (surveyed .running 500000) 6 (.fetch 8)).map
          (verdictOn (hear 6 { surveyed .running 500000 with w.seq.slot := [fetch8] })) = some (.merged 7) := by
  delta Runs
  decide

/-- `CallFrameIsAnswered`: each refusal of a service winder's tests, in their order, and what follows them. -/
theorem test_witness_verdicts :
    (let held : State := { parkedAt8 with w.seq.custodian := some 6 }
     let sent (d : Nat) (c : LoadClass) : Call := { fetch8 with kind := .dispatch, dest := some d, cls := some c }
     let fetch16 : Call := { fetch0 with origin := 7, level := 16 }
     let relevel8 : Call := { fetch8 with kind := .relevel }
     verdictOn parkedAt8 (readyOf 6 1) = .refused .wrongKind
      ∧ verdictOn parkedAt8 (sent 9 .men) = .refused .unknownLevel
      ∧ verdictOn { parkedAt8 with peers := [{ landingPeer 7 16 1513380 with heard := .silent }] } fetch16
          = .refused .levelOutOfService
      ∧ verdictOn { parkedAt8 with w.tr.validated := false } fetch16 = .refused .notSurveyed
      ∧ verdictOn parkedAt8 (sent 16 .men) = .refused .notCustodian ∧ verdictOn held (sent 8 .men) = .refused .sameLevel
      ∧ verdictOn
          { held with
            peers := [landingPeer 6 8 742240
                     , { landingPeer 7 16 1513380 with geometry := [{ geometry 16 1513380 with servesMen := false }] }] }
          (sent 16 .men) = .refused .classNotServed
      ∧ verdictOn held (sent 16 .men) = .accepted
      ∧ verdictOn (surveyed .idle 742290) relevel8 = .refused .notNear
      ∧ verdictOn (surveyed .idle 742291) relevel8 = .accepted
      ∧ verdictOn (surveyed .idle 742740) relevel8 = .accepted
      ∧ verdictOn (surveyed .idle 742741) relevel8 = .refused .notNear
      ∧ verdictOn { parkedAt8 with w.seq.list := List.replicate 15 fetch8 } fetch16 = .accepted
      ∧ verdictOn { parkedAt8 with w.seq.list := List.replicate 16 fetch8 } fetch16 = .refused .listFull) := by
  decide

/-- `CallFrameIsAnswered`: with 8 answers queued a CALL is not taken, with 7 it is. -/
theorem test_witness_call_not_taken :
    (let taken (n : Nat) : Option (List Call × Nat × Nat) :=
       after (.callFrame 7 ⟨1, .fetch 16⟩) (answers n { underWay .running with w.seq.list := [fetch0] }) fun t =>
         (t.w.seq.list.drop 1, t.w.seq.seqCounter, t.line.queue.answer.length)
     HeardFrom (underWay .running) 7 ∧ taken 8 = some ([], 1, 8)
      ∧ taken 7 = some ([{ fetch0 with origin := 7, level := 16, seq := 1 }], 2, 8)) := by
  delta HeardFrom Receives
  decide

/-- `CallFrameIsAnswered`: the verdicts of a rock winder. -/
theorem test_witness_ready_verdicts :
    verdictOn (rock 0) fetch8 = .refused .wrongKind ∧ verdictOn (rock 0) (readyOf 30 1) = .refused .unknownLevel
      ∧ verdictOn { rock 0 with w.tr.validated := false } (readyOf 30 4) = .refused .notSurveyed
      ∧ verdictOn (rock 0) (readyOf 30 4) = .merged 30
      ∧ verdictOn { rock 0 with w.seq.list := [] } (readyOf 30 4) = .accepted := by decide

/-- `AnswerMovesTheCall`: a landing's record in each status it names, and a skip point's in each state. -/
theorem test_witness_answer :
    Runs (landing .noCage .idle none 0 0) .landing
      ∧ (landingWinder (landing .noCage .idle none 0 0)).map (·.node) = some 1
      ∧ ({ landing .noCage .idle none 0 0 with l.call := some (callRecord .fetch .waiting none) }).l.call
          = some (callRecord .fetch .waiting none)
      ∧ (callRecord .fetch .accepted (some 51)).seq = some 51
      ∧ SkipRuns (skipPoint .loader .loaded .idle) ∧ SkipRuns (skipPoint .tipper .ready .idle)
      ∧ (pointWinder (skipPoint .loader .loaded .idle)).map (·.node) = some 1
      ∧ anyFlag (skipPoint .loader .loaded .idle).k = false ∧ isShut (skipPoint .loader .loaded .idle) = true := by
  delta Runs SkipRuns
  decide

/-- An ANNOUNCE of a landing with a stop at a depth. -/
def announceOf (stop : Int) : PointAnnounce :=
  { point := .landing 8, comp := 1, start := false, hasLanding := true, servesMen := true, fitted := true, stop := stop
    down := stop, up := stop, half := 30, zoneSpeed := 20 }

/-- `AnnounceReplacesTheGeometry`: the bounds of R53 and the depths beyond them. -/
theorem test_witness_announce :
    announceTaken (announceOf 4000000) = true ∧ announceTaken (announceOf (-100000)) = true
      ∧ announceTaken (announceOf 4000001) = false ∧ announceTaken (announceOf (-100001)) = false := by decide +kernel

/-- `AnnounceReplacesTheGeometry`, at a winder: a moved point loses its learned entry, one that did not keeps it, and a
second point of the level is in conflict. -/
theorem test_witness_announce_at_winder :
    (peerOf (surveyed .idle 0) 6).role = .point (announceOf 742240).point
      ∧ geometryOf (peerOf (surveyed .idle 0) 6) 1 = some (geometry 8 742240)
      ∧ after (.announceFrame 6 (.point (announceOf 742241))) (surveyed .idle 0) (fun t => learnedOf t .a 6) = some none
      ∧ after (.announceFrame 6 (.point (announceOf 742240))) (surveyed .idle 0) (fun t => learnedOf t .a 6)
          = some (some (learnedAt 6 742240))
      ∧ after (.announceFrame 9 (.point (announceOf 742240))) (surveyed .idle 0)
          (fun t => t.peers.map fun x => (x.node, x.conflict))
          = some [(5, false), (6, true), (7, false), (8, false), (9, true)] := by decide

/-- `AnnounceReplacesTheGeometry`: the own set is queued at a node not heard before, and not at one PRESENT. -/
theorem test_witness_announce_again :
    (landing .noCage .idle none 0 0).line.mode = .active ∧ (peerOf (landing .noCage .idle none 0 0) 7).heard ≠ .present
      ∧ (peerOf (landing .noCage .idle none 0 0) 1).heard = .present
      ∧ (ownAnnounce (landing .noCage .idle none 0 0) .first false).isSome = true
      ∧ after (.announceFrame 7 (.point (announceOf 0))) (landing .noCage .idle none 0 0)
          (fun t => (t.line.queue.announce.at .first).isSome) = some true
      ∧ after (.announceFrame 1 (.winder ⟨.service, 1, false, false⟩)) (landing .noCage .idle none 0 0)
          (fun t => (t.line.queue.announce.at .first).isSome) = some false := by decide

/-- `AnnounceReplacesTheGeometry`, a winder's ANNOUNCE: from a node of no role, a point, another kind, and each of the
same winder's two frames. -/
theorem test_witness_winder_announce :
    (let first : WinderAnnounce := ⟨.service, 1, false, false⟩
     let second : WinderAnnounce := ⟨.service, 2, false, true⟩
     let as (w : WinderAnnounce) (r : PeerRole) : Option PeerRole :=
       after (.announceFrame 6 (.winder w)) { surveyed .idle 0 with peers := [{ landingPeer 6 8 742240 with role := r }] }
         (fun t => (peerOf t 6).role)
     as first .none = some (.winder .service (some 1) none)
      ∧ as second (.point (.landing 8)) = some (.winder .service none (some 2))
      ∧ as first (.winder .rock (some 1) (some 2)) = some (.winder .service (some 1) none)
      ∧ as second (.winder .service (some 1) none) = some (.winder .service (some 1) (some 2))
      ∧ as first (.winder .service none (some 2)) = some (.winder .service (some 1) (some 2))
      ∧ after (.announceFrame 6 (.winder first)) (surveyed .idle 0) (fun t => (learnedOf t .a 6, (peerOf t 6).geometry))
          = some (none, [])) := by decide

/-- A landing that holds the motion page of report 40. -/
def halfReport : State :=
  { landing .noCage .idle none 0 0 with
    line.assembly := [{ node := 1, motion := some (motion .idle 0 0, 5), status := none, delivered := some 39 }] }

/-- `PagesMakeAReport`: a status page that completes a report, and one of a report already delivered. -/
theorem test_witness_pages :
    HeardFrom halfReport 1 ∧ (assemblyOf halfReport 1).motion = some (motion .idle 0 0, 5)
      ∧ (motion .idle 0 0).number = (status .service .idle 1 2 none 0 0).number
      ∧ (assemblyOf halfReport 1).delivered ≠ some (motion .idle 0 0).number
      ∧ (assemblyOf
          { halfReport with
            line.assembly := [{ node := 1, motion := some (motion .idle 0 0, 5), status := none, delivered := some 40 }] }
          1).delivered = some (motion .idle 0 0).number := by
  delta HeardFrom Receives
  decide

/-- A shaft point that holds the motion page of report 40 of its winder. -/
def halfHeard (m : MotionPage) (s : State) : State :=
  { s with line.assembly := [{ node := 1, motion := some (m, 0), status := none, delivered := some 39 }] }

/-- The landing's state after a report of the cage at rest with a parked level, a custodian and a last custodian. -/
def landingAfter (st : LandingState) (parked : Option Nat) (custodian last : Nat) : Option LandingState :=
  after (.motionPage 1 (.status (status .service .idle 1 2 parked custodian last)))
    (halfHeard (motion .idle 742240 0) (landing st .running none 0 0)) (·.l.state)

/-- `PagesMakeAReport`, the landing's table: each state with a report that keeps it and one that does not. -/
theorem test_witness_report_at_landing :
    cageCompartment (pcfg (landing .noCage .running none 0 0)) = some 1
      ∧ landingAfter .noCage (some 8) 0 0 = some .claiming ∧ landingAfter .noCage (some 8) 0 6 = some .noCage
      ∧ landingAfter .cageHere none 0 0 = some .noCage ∧ landingAfter .claiming (some 8) 0 0 = some .claiming
      ∧ landingAfter .claiming (some 8) 6 0 = some .custody ∧ landingAfter .claiming (some 8) 5 0 = some .noCage
      ∧ landingAfter .custody (some 8) 6 0 = some .custody ∧ landingAfter .custody (some 8) 5 0 = some .noCage
      ∧ landingAfter .locking (some 8) 6 0 = some .locking ∧ landingAfter .locking none 6 0 = some .noCage
      ∧ landingAfter .releasing none 6 0 = some .releasing ∧ landingAfter .releasing none 0 6 = some .noCage
      ∧ landingAfter .outOfService (some 8) 6 0 = some .outOfService := by decide

/-- `PagesMakeAReport`, the rows of an ACCEPTED call record: DONE, in service, the mark taken back, DROPPED. -/
theorem test_witness_report_on_call :
    (let record : LandingCall := callRecord .fetch .accepted (some 51)
     let judged (r : LandingCall) (w : WindState) (q : StatusPage) : Option (Option LandingCall) :=
       after (.motionPage 1 (.status q))
         { halfHeard (motion w 0 0) (landing .noCage .running none 0 0) with l.call := some r } (·.l.call)
     let q : StatusPage := status .service .running 1 2 none 0 0
     judged record .idle (status .service .idle 1 2 (some 8) 0 0) = some (some { record with status := .done })
      ∧ judged record .running { q with call := some .fetch, origin := 6, seq := 51 }
          = some (some { record with mark := .inService })
      ∧ judged { record with mark := .inService } .suspended { q with record := true }
          = some (some { record with mark := .suspended, suspendedSeen := true })
      ∧ judged { record with mark := .suspended, suspendedSeen := true } .idle q
          = some (some { record with mark := .suspended, suspendedSeen := true, status := .dropped })
      ∧ judged { record with mark := .inService } .idle q = some (some { record with mark := .returned })
      ∧ judged record .running q = some (some record)) := by decide

/-- What a skip point shows after a report of a wind state, the skip at a depth. -/
def skipAfter (r : Role) (st : PointState) (posted : Bool) (w : WindState) (x : Int) : Option (PointState × Bool × Bool) :=
  after (.motionPage 1 (.status (status .rock w 3 4 none 0 0)))
    { halfHeard (motion w x 0) (skipPoint r st .idle) with k.posted := posted } (fun t => (t.k.state, t.k.unready, t.k.mark.a))

/-- `PagesMakeAReport`, a skip point: the agreed skip leaves, a start not agreed to, a skip 200 mm off its stop and 201,
and one let go. -/
theorem test_witness_report_at_skip_point :
    skipAfter .loader .ready true .running 0 = some (.noSkip, false, true)
      ∧ skipAfter .loader .loaded true .preparing 0 = some (.noSkip, false, true)
      ∧ skipAfter .loader .loading false .preparing 0 = some (.noSkip, true, false)
      ∧ skipAfter .loader .loaded false .preparing 0 = some (.loaded, true, false)
      ∧ (pcfg (skipPoint .loader .noSkip .idle)).positionTol = 200
      ∧ skipAfter .loader .noSkip false .idle 3452200 = some (.loading, false, false)
      ∧ skipAfter .tipper .noSkip false .idle 3451800 = some (.inPosition, false, false)
      ∧ skipAfter .loader .noSkip false .idle 3452201 = some (.noSkip, false, false)
      ∧ skipAfter .tipper .inPosition false .running 3452000 = some (.noSkip, false, false) := by decide

/-- A state whose line is being received from. -/
def receiving : State := { winder .idle with line.activity := .receiving, line.rxStart := some 0 }

set_option maxRecDepth 8000 in
/-- `ReceivedFrameIsCheckedAndDelivered`: a frame whose check fails, a MARKER, an ALARM, and a held MARKER. -/
theorem test_witness_received :
    Receives receiving ∧ decodeFrame { encodeFrame ⟨7, .marker 1 4⟩ with check := 0 } = none
      ∧ decodeFrame (encodeFrame ⟨7, .marker 1 4⟩) = some ⟨7, .marker 1 4⟩ ∧ receiving.line.rxMarkers.length < 2
      ∧ decodeFrame (encodeFrame ⟨7, .alarm 1⟩) = some ⟨7, .alarm 1⟩
      ∧ deliveryOf ⟨7, .alarm 1⟩ = some (.alarmFrame 7 1)
      ∧ ({ receiving with line.rxMarkers := [⟨7, 1, 4, 6⟩] }).line.rxMarkers = [⟨7, 1, 4, 6⟩] := by
  delta Receives
  decide

/-- `LineActivityAndAttemptsFollowTheLine`: a line in each activity. -/
theorem test_witness_line :
    Receives (winder .idle) ∧ (winder .idle).line.activity = .idle ∧ receiving.line.activity = .receiving
      ∧ ({ receiving with line.activity := .resync }).line.activity = .resync
      ∧ ({ receiving with line.interframe := true }).line.interframe = true := by
  delta Receives
  decide

/-- A landing with an ALARM and a MARKER queued, the pass 300 ms old. -/
def queued : State :=
  { landing .noCage .idle none 0 0 with
    clock := 300, line.queue.alarm := some 1, line.queue.marker := [⟨1, 0⟩], line.queue.call := [⟨1, .fetch 8⟩] }

/-- `LineActivityAndAttemptsFollowTheLine`, an attempt. -/
theorem test_witness_attempt_start :
    queued.line.mode = .active ∧ queued.line.activity = .idle ∧ queued.line.attempt = none
      ∧ frameAt queued.clock queued.line.queue .alarm = some (.alarm 1)
      ∧ frameAt queued.clock queued.line.queue .marker = some (.marker 1 255) ∧ PlacesSound queued := by
  refine ⟨rfl, rfl, rfl, rfl, rfl, ?_, ?_⟩
  · intro p h
    cases h
  · decide

/-- An attempt of a frame from a place. -/
def attemptOf (p : Place) (b : Payload) (s : State) : State :=
  { s with
    line.attempt := some { place := p, frame := ⟨s.config.node, b⟩, bits := encodeFrame ⟨s.config.node, b⟩, startedAt := 0 }
    line.activity := .sending }

/-- The winder's latest report. -/
def report40 : Report := ⟨motion .idle 0 0, status .service .idle 1 2 none 0 0⟩

/-- The winder with its motion page on the line. -/
def sending : State :=
  { winder .idle with
    line.sent := some { report := report40, motionDone := false, statusDone := false }
    line.queue.periodic := some (.page (.motion report40.motion)) }

/-- `AttemptEndActsOnThePlace`: an attempt of each place that it names. -/
theorem test_witness_attempt_end :
    ((attemptOf .alarm (.alarm 1) queued).line.attempt.map (·.place)) = some .alarm
      ∧ ((attemptOf .answer (.answer (droppedAnswer fetch8)) (answers 1 (winder .idle))).line.attempt.map (·.place))
          = some .answer
      ∧ ((attemptOf .periodic (.page (.motion report40.motion)) sending).line.attempt.map (·.place)) = some .periodic
      ∧ Runs sending .winder ∧ sending.line.pendingPeriodic = none
      ∧ sending.line.sent = some { report := report40, motionDone := false, statusDone := false }
      ∧ Runs (landing .noCage .idle none 0 0) .landing ∧ (landing .noCage .idle none 0 0).line.pendingPeriodic = none
      ∧ Runs { landing .noCage .idle none 0 0 with line.pendingPeriodic := some (.state (.landing (landingState 8))) }
          .landing := by
  delta Runs
  decide

/-- `AttemptEndActsOnThePlace`, the ANSWER place: a lost attempt keeps its head, a completed or aborted one gives the place to
the earliest-marked dropping entry, of equal marks the one nearer the head. -/
theorem test_witness_answer_place :
    (let old : Call := { fetch8 with origin := 7, level := 16, seq := 9, mark := some 2 }
     let list : List Call := [{ fetch0 with mark := some 4 }, old, { old with origin := 8, seq := 10 }]
     let full : State :=
       attemptOf .answer (.answer (droppedAnswer fetch8)) (answers 8 { underWay .running with w.seq.list := list })
     let left (e : AttemptEnding) : Option (List Call × List AnswerFrame) :=
       after (.attemptEnd e) full fun t => (t.w.seq.list, t.line.queue.answer)
     let served : List AnswerFrame := List.replicate 7 (droppedAnswer fetch8) ++ [droppedAnswer old]
     CallsDistinct full ∧ left .lost = some (list, List.replicate 8 (droppedAnswer fetch8))
      ∧ left .completed = some ([{ fetch0 with mark := some 4 }, { old with origin := 8, seq := 10 }], served)
      ∧ left .aborted = left .completed) := by
  delta CallsDistinct callsDiffer
  decide

/-- `AttemptEndActsOnThePlace`, a shaft point's STATE with nothing pending: the slot empty when it completes, kept when it is
lost, and taken by a content that changes. -/
theorem test_witness_state_place :
    (let s : State := landing .noCage .idle none 0 0
     let own : Payload := .state (ownState s)
     let onLine : State := attemptOf .periodic own { s with line.queue.periodic := some own }
     let slot (e : AttemptEnding) (s : State) : Option (Option Payload) := after (.attemptEnd e) s (·.line.queue.periodic)
     Runs s .landing ∧ s.line.sent = none ∧ onLine.line.pendingPeriodic = none
      ∧ slot .completed onLine = some none ∧ slot .lost onLine = some (some own)
      ∧ (slot .completed { onLine with l.outKey := some true }).any (fun p => p.isSome && p != some own) = true) := by
  delta Runs
  decide

/-- `OwnNumberHeardFaults`: the own number heard during an attempt waits for its end. -/
theorem test_witness_own_number_in_attempt :
    (attemptOf .alarm (.alarm 1) queued).line.attempt.isSome = true
      ∧ after (.alarmFrame 6 1) (attemptOf .alarm (.alarm 1) queued) (fun t => (t.step, t.line.heardOwn))
          = some (.run, true)
      ∧ after (.attemptEnd .completed) { attemptOf .alarm (.alarm 1) queued with line.heardOwn := true }
          (fun t => (t.step, t.line.mode)) = some (.faulted, .disabled)
      ∧ surveying (inSurveyRun 0) = true
      ∧ after (.alarmFrame 1 1) (inSurveyRun 0) (·.w.seq.survey.outcome) = some .aborted := by decide

/-- `HearingAndSilenceMoveTheEntry`: a landing heard at the winder. -/
theorem test_witness_silence :
    (surveyed .idle 742240).step = .run ∧ (peerOf (surveyed .idle 742240) 6).silence.isSome = true
      ∧ (listening (surveyed .idle 742240)).step = .listen := by decide +kernel

/-- `PointTimersRunOut`: a landing in LOCKING and one WAITING; a skip point that has posted. -/
theorem test_witness_point_timers :
    Runs { landing .locking .idle (some 8) 6 0 with l.lockTimer := some 0 } .landing
      ∧ (landing .locking .idle (some 8) 6 0).l.state = .locking
      ∧ Runs { landing .noCage .idle none 0 0 with
               l.callTimer := some 0, l.call := some (callRecord .fetch .waiting none) } .landing
      ∧ SkipRuns { skipPoint .loader .loaded .idle with
                   k.posted := true, k.callTimer := some 0, k.call := some ⟨3, .waiting, none⟩ }
      ∧ (pointWinder (skipPoint .loader .loaded .idle)).isSome = true
      ∧ (landing .noCage .idle none 0 0).l.stateTimer.isSome = true
      ∧ (skipPoint .loader .loaded .idle).k.stateTimer.isSome = true := by
  delta Runs SkipRuns
  decide

/-- `LandingButtonsAct`: the case of each button. -/
theorem test_witness_buttons :
    Runs (landing .noCage .idle (some 8) 0 6) .landing ∧ isOn (landing .noCage .idle (some 8) 0 6).l.outKey = false
      ∧ parkedHere (landing .noCage .idle (some 8) 0 6) = true ∧ noneNamed (landing .noCage .idle (some 8) 0 6) = true
      ∧ isLast (landing .noCage .idle (some 8) 0 6) = true
      ∧ (landingWinder (landing .noCage .running none 0 0)).isSome = true
      ∧ parkedHere (landing .noCage .running none 0 0) = false ∧ callBusy (landing .noCage .running none 0 0) = false
      ∧ cageOffLevel (landing .noCage .idle none 0 0) = true ∧ callWaiting (landing .noCage .idle none 0 0) = false
      ∧ gateShut (landing .custody .idle (some 8) 6 0) = true
      ∧ classSelector false true false = some .men ∧ classSelector true true false = none
      ∧ (0#5).toNat ≠ (pcfg (landing .custody .idle (some 8) 6 0)).level
      ∧ (8#5).toNat = (pcfg (landing .custody .idle (some 8) 6 0)).level
      ∧ gateOfInputs (landing .noCage .idle (some 8) 0 6) = .closedLocked := by
  delta Runs
  decide

/-- What a press leaves in the landing's flash, state and call record. -/
def pressed (c : Instr) (s : State) : Option (Option Nat × LandingState × Bool) :=
  after c s (fun t => (t.l.flash, t.l.state, t.l.call.isSome))

/-- `LandingButtonsAct`: presses that are ignored, for want of a winder, with the cage here, in OUT_OF_SERVICE and with the
gate open, and a DISPATCH that is queued at once. -/
theorem test_witness_ignored_presses :
    pressed .callButton { landing .noCage .running none 0 0 with peers := [] } = some (some 1000, .noCage, false)
      ∧ pressed .callButton (landing .cageHere .idle (some 8) 0 0) = some (some 1000, .cageHere, false)
      ∧ pressed .callButton (landing .outOfService .idle none 0 0) = some (some 1000, .outOfService, false)
      ∧ pressed .relevelButton (landing .noCage .running none 0 0) = some (some 1000, .noCage, false)
      ∧ pressed .releaseButton { landing .custody .idle (some 8) 6 0 with l.gateClosed := some false }
          = some (some 1000, .custody, false) := by decide

theorem test_witness_dispatch_presses :
    pressed (.dispatchButton 0 false true false) { landing .noCage .running none 0 0 with peers := [] }
        = some (some 1000, .noCage, false)
      ∧ pressed (.dispatchButton 0 false true false) (landing .noCage .idle none 0 0) = some (some 1000, .noCage, false)
      ∧ after (.dispatchButton 0 false true false) (landing .noCage .idle (some 8) 0 6) (fun t => t.line.queue.call)
          = some [⟨1, .dispatch 8 0 .men⟩] := by decide

/-- `LandingInputsAct`: a gate closed in each state, and one not yet locked in LOCKING with a pending DISPATCH. -/
theorem test_witness_gate :
    (landing .locking .idle (some 8) 6 0).step ≠ .off ∧ hasRole (landing .locking .idle (some 8) 6 0) .landing = true
      ∧ Runs (landing .locking .idle (some 8) 6 0) .landing ∧ isOn (landing .noCage .idle none 0 0).l.gateClosed = true
      ∧ gateOfInputs { landing .locking .idle (some 8) 6 0 with l.gateLocked := some false } ≠ .closedLocked
      ∧ isOn (landing .locking .idle (some 8) 6 0).l.outKey = false
      ∧ (landingWinder (landing .locking .idle (some 8) 6 0)).isSome = true := by
  delta Runs
  decide

/-- `LandingInputsAct` and `ResetKeysClearFlags`: a landing in OUT_OF_SERVICE, and a stuck tipper door closed. -/
theorem test_witness_keys :
    Runs (landing .outOfService .idle none 0 0) .landing ∧ SkipRuns (skipPoint .tipper .doorStuck .idle)
      ∧ isShut (skipPoint .tipper .doorStuck .idle) = true ∧ hasRole (skipPoint .tipper .doorStuck .idle) .tipper = true
      ∧ (skipPoint .tipper .doorStuck .idle).k.working.isSome = true := by
  delta Runs SkipRuns
  decide

/-- `ResetKeysClearFlags`: READY is posted of a freed door, and of a LOADED skip whose flag the key clears. -/
theorem test_witness_reset_posts :
    served (pcfg (skipPoint .tipper .doorStuck .idle)) .first = some skipCfg.first
      ∧ (pointWinder (skipPoint .tipper .doorStuck .idle)).map (·.node) = some 1
      ∧ after .skipPointResetKey { skipPoint .tipper .doorStuck .idle with k.doorStuck := true }
          (fun t => (t.k.posted, t.k.call, t.line.queue.call)) = some (true, some ⟨3, .waiting, none⟩, [⟨1, .ready 3⟩])
      ∧ after .skipPointResetKey { skipPoint .loader .loaded .idle with k.chuteHold := true }
          (fun t => (t.k.state, t.k.posted, t.line.queue.call)) = some (.loaded, true, [⟨1, .ready 3⟩]) := by decide

/-- `LoopsAreSupervisedAndPassed`: a supervised loop; the bounds of the current ranges; a report with a position, 1 s
old, of a moving cage. -/
theorem test_witness_loops :
    supervised (landing .noCage .idle none 0 0) .first = true ∧ (1999 < 2000 ∨ 24000 < 24001)
      ∧ (3000 ≤ 9000 ∧ 9000 ≤ 9000 ∨ 11000 ≤ 9000 ∧ 9000 ≤ 20000)
      ∧ onLine (.announce .first) (landing .noCage .idle none 0 0) = false
      ∧ served (pcfg (landing .noCage .idle none 0 0)) .first = some landingCfg.first
      ∧ ((landing .noCage .idle none 0 0).l.loops.at .first).faulty = false
      ∧ ((landing .noCage .idle none 0 0).l.loops.at .first).armed = true
      ∧ (latestFor (checking 740000 1000) 1).isSome = true
      ∧ (checking 740000 1000).clock - 0 ≤ 1000 ∧ (motion .running 740000 11950).validated = true
      ∧ latestFor { checking 0 0 with peers := [] } 1 = none := by decide +kernel

theorem test_loop_ranges :
    after (.loopFault .first 1999) (landing .noCage .idle none 0 0) (fun t => t.l.loops.a)
        = some ⟨.opened, true, true⟩
      ∧ after (.loopFault .first 24001) (landing .noCage .idle none 0 0) (fun t => t.l.loops.a)
        = some ⟨.short, true, true⟩
      ∧ after (.loopOk .first 9000) (landing .noCage .idle none 0 0) (fun t => t.l.loops.a)
        = some ⟨.clear, false, true⟩
      ∧ after (.loopOk .first 11000) (landing .noCage .idle none 0 0) (fun t => t.l.loops.a)
        = some ⟨.active, false, true⟩ := by decide +kernel

/-- `LoopsAreSupervisedAndPassed`: currents between the bands, at both ends of each, keep the loop's class. -/
theorem test_loop_between_bands :
    ([2000, 2999, 9001, 10999, 20001, 24000].all fun i =>
        after (.loopFault .first i) { landing .noCage .idle none 0 0 with l.loops.a := ⟨.short, false, true⟩ }
            (·.l.loops.a) == some ⟨.short, true, true⟩
          && after (.loopOk .first i) { landing .noCage .idle none 0 0 with l.loops.a := ⟨.active, true, false⟩ }
            (·.l.loops.a) == some ⟨.active, false, false⟩) = true := by decide

/-- `LoopsAreSupervisedAndPassed`: where no check is made TRACK_DOUBT stays: a report of 1,001 ms, one without X, one not
validated, and a cage at rest; and a pass with a report of 1,000 ms settles it. -/
theorem test_witness_no_cross_check :
    (let doubting (m : MotionPage) (now : Nat) : State :=
       { checking 0 0 with
         clock := now, peers := [winderPeer m (status .service .running 1 2 none 0 0)], l.doubt := ⟨true, false⟩ }
     let pass (m : MotionPage) (now : Nat) : Option (Pair Bool) := after (.markerPass .first) (doubting m now) (·.l.doubt)
     pass (motion .running 729050 11950) 1000 = some ⟨false, false⟩
      ∧ pass (motion .running 729050 11950) 1001 = some ⟨true, false⟩
      ∧ pass { motion .running 741000 11950 with x := ⟨none, none⟩ } 0 = some ⟨true, false⟩
      ∧ pass { motion .running 741000 11950 with validated := false } 0 = some ⟨true, false⟩
      ∧ pass (motion .running 741000 0) 0 = some ⟨true, false⟩) := by decide

/-- `SkipPresenceActs`: a skip that is present and one that is not. -/
theorem test_witness_skip_presence :
    SkipRuns (skipPoint .loader .loading .idle) ∧ served (pcfg (skipPoint .loader .loading .idle)) .first = some skipCfg.first
      ∧ (skipPoint .loader .loading .idle).k.present.at .first = true
      ∧ ({ skipPoint .loader .noSkip .idle with k.present := ⟨false, false⟩ }).k.present.at .first = false
      ∧ (skipPoint .loader .loading .idle).k.working = some .first := by
  delta SkipRuns
  decide

/-- `LoaderAndTipperInputsAct`: a loader loading, one in position, and a tipper in each state it names. -/
theorem test_witness_skip_inputs :
    Runs (skipPoint .loader .loading .idle) .loader ∧ isShut (skipPoint .loader .loading .idle) = true
      ∧ isOn (skipPoint .loader .loading .idle).k.complete = false ∧ anyFlag (skipPoint .loader .loading .idle).k = false
      ∧ (pointWinder (skipPoint .loader .loading .idle)).isSome = true
      ∧ (skipPoint .loader .inPosition .idle).k.state ≠ .loading
      ∧ Runs (skipPoint .tipper .inPosition .idle) .tipper
      ∧ Runs { skipPoint .tipper .dumping .idle with k.dumpTimer := some 0 } .tipper
      ∧ ({ skipPoint .tipper .dumping .idle with k.dumpTimer := some 0 }).k.dumpTimer.isSome = true := by
  delta Runs
  decide

/-- `MarkerFrameCorrectsK`: an admitted pass too old, beyond a short history, and of an entry without X or direction. -/
theorem test_witness_not_located :
    (let s : State := { surveyed .running 742000 with w.tr.history := [] }
     let of (h : HistoryEntry) : State := { surveyed .running 742000 with w.tr.history := List.replicate 128 h }
     let left (s : State) (age : Nat) : Option (Pair Int × Bool) :=
       after (.markerFrame 6 1 age) s fun t => (t.w.tr.k, t.w.flt.raised.tracking)
     (surveyed .running 742000).w.tr.validated = true ∧ (learnedOf (surveyed .running 742000) .a 6).isSome = true
      ∧ left (surveyed .running 742000) 249 = some (⟨240, 0⟩, false)
      ∧ left (surveyed .running 742000) 250 = some (⟨0, 0⟩, false)
      ∧ left s 4 = some (⟨0, 0⟩, false) ∧ left (of ⟨none, ⟨.down, .up⟩⟩) 4 = some (⟨0, 0⟩, false)
      ∧ left (of ⟨some ⟨742000, 0⟩, ⟨.none, .none⟩⟩) 4 = some (⟨0, 0⟩, false)) := by decide

/-- The survey before its points, which nothing aborts. -/
def surveySound : State := surveyAt 700000 2295113

/-- What a pass leaves of the survey. -/
def passed (n comp age : Nat) (s : State) : Option (WindState × Survey) :=
  after (.markerFrame n comp age) s fun t => (t.w.seq.wind, t.w.seq.survey)

/-- `SurveyPassIsJudged`, the ignored passes: another compartment, a CONFLICT point, the start point, the pointer
exhausted, and one of the pointer's point not located. -/
theorem test_witness_survey_ignored :
    (let same (n comp age : Nat) (s : State) : Prop := passed n comp age s = some (.survey, s.w.seq.survey)
     let clash : State :=
      { surveySound with peers := [landingPeer 5 0 1200, { landingPeer 6 8 742240 with conflict := true }] }
     let done : State := { surveySound with w.seq.survey.pointer := ⟨2, 1⟩ }
     InWind surveySound .survey ∧ surveying surveySound = true ∧ surveySound.w.panel.selector = .survey
      ∧ FaultsSettled surveySound ∧ strongActive surveySound = false ∧ reportedBar surveySound = none
      ∧ tripLevel surveySound = false
      ∧ same 6 3 4 surveySound ∧ same 6 1 4 clash ∧ same 5 1 4 surveySound ∧ same 6 1 4 done ∧ same 6 2 4 done
      ∧ same 6 1 250 surveySound ∧ ¬same 8 1 4 surveySound) := by
  delta InWind Runs FaultsSettled
  decide

/-- `SurveyPassIsJudged`, ABORTED by the start window, a stall, a silence under STOP, a GATE_BREACH, and the selector. -/
theorem test_witness_survey_aborted_by_kinds :
    (let ends (c : Instr) (s : State) : Option SurveyOutcome := after c s (·.w.seq.survey.outcome)
     let strict : State :=
      { surveySound with
        cfg := some (nodeCfg .winder 1 { winderCfg with reactions.peerSilent := .stop } Config.noPoint) }
     let stalled : State := { surveySound with w.tr.stall := some 500, w.env.refSpeed := 800 }
     ends .startTimerExpiry { surveySound with w.seq.startTimer := some 0 } = some .aborted
      ∧ stallRuns stalled = true ∧ ends .stallTimerExpiry stalled = some .aborted
      ∧ (peerOf strict 6).silence.isSome = true ∧ (stateOf (peerOf strict 6)).isSome = true
      ∧ ends (.silenceTimeout 6) strict = some .aborted ∧ ends (.silenceTimeout 6) surveySound = some .inProgress
      ∧ ends (.stateFrame 6 (.landing { landingState 8 with breach := true })) surveySound = some .aborted
      ∧ ends (.modeSelectorChange true false false) surveySound = some .aborted
      ∧ ends (.alarmFrame 6 1) surveySound = some .aborted
      ∧ ends (.driveRunningChange false) surveySound = some .aborted) := by decide

/-- `SurveyPassIsJudged`, ABORTED by an ANNOUNCE: a depth changed, a fitted point added, a clash; one that changes none
leaves the survey in progress. -/
theorem test_witness_survey_aborted_by_announce :
    (let ends (n : Nat) (p : PointAnnounce) : Option SurveyOutcome :=
       after (.announceFrame n (.point p)) surveySound (·.w.seq.survey.outcome)
     announceTaken (announceOf 742241) = true ∧ inSurvey surveySound.w.seq.survey .a 6 = true
      ∧ (geometryOf (peerOf surveySound 6) 1).map (·.stop) = some 742240
      ∧ ends 6 (announceOf 742240) = some .inProgress ∧ ends 6 (announceOf 742241) = some .aborted
      ∧ ends 6 { announceOf 742240 with fitted := false } = some .aborted
      ∧ ends 9 { announceOf 900000 with point := .landing 10 } = some .aborted
      ∧ ends 9 { announceOf 900000 with point := .landing 10, fitted := false } = some .inProgress
      ∧ ends 9 { announceOf 742240 with fitted := false } = some .aborted) := by decide

/-- `SurveyPassIsJudged`: both conveyances beyond their points at one sample fail A's. -/
theorem test_witness_survey_both_missing :
    after .positionSample (surveyAt 743241 2205409) (fun t => (t.w.seq.survey.outcome, t.w.seq.survey.failing))
      = some (.missing, some (6, .a)) := by decide

/-- `DriveTelegramCarriesItsBytes`, PERMIT withdrawn: by the lost drive in RUNNING, TRIP released; and by a survey that a sample
finds past its point with the drive at rest, at which an illegal edge trips ENCODER, code 3, after a POWER_UP cause. -/
theorem test_witness_telegram_at_withdrawal :
    (let missed : State :=
       { surveyAt 743241 2205409 with
         w.panel.driveRunning := some false, w.seq.permit := true, w.env.refSpeed := 300, w.flt.raised.encoder := true }
     let shown (c : Instr) (s : State) : Option (WindState × TripCause × List Nat) :=
       after c s fun t => (t.w.seq.wind, t.w.flt.tripCause, (t.w.drive.telegram.map (·.toNat)).take 8)
     Runs missed .winder ∧ FaultsSettled missed ∧ FaultsSettled (underWay .running) ∧ missed.w.flt.tripCause = .powerUp
      ∧ (wcfg missed).reactions.encoder = .tripLatched
      ∧ shown .positionSample missed = some (.tripped, .fault .encoder, [0, 0, 0, 0, 0, 0, 0, 3])
      ∧ (shown (.driveRunningChange false) (underWay .running)).map (fun q => (q.1, q.2.2[7]?)) = some (.suspended, some 255)) := by
  delta Runs FaultsSettled
  decide

/-- The winder's periodic slot and the motion page of its latest report after the end of an attempt. -/
def slotAfter (e : AttemptEnding) (s : State) : Option (Option Payload × Option Payload) :=
  after (.attemptEnd e) s fun t => (t.line.queue.periodic, (latestReport t).map fun r => .page (.motion r.motion))

/-- `AttemptEndActsOnThePlace`, a winder's periodic slot: its page lost, its status page completed, and a report that
waits. -/
theorem test_witness_winder_slot :
    (let motion (r : Report) : Payload := .page (.motion r.motion)
     let status (r : Report) : Payload := .page (.status r.status)
     let next : Report := ⟨{ report40.motion with number := 41 }, { report40.status with number := 41 }⟩
     let first : State := attemptOf .periodic (motion report40) sending
     let second : State :=
      attemptOf .periodic (status report40)
        { sending with
          line.sent := some { report := report40, motionDone := true, statusDone := false }
          line.queue.periodic := some (status report40) }
     let waits (s : State) : State := { s with line.pendingPeriodic := some (.report next) }
     slotAfter .completed first = some (some (status report40), some (motion report40))
      ∧ slotAfter .lost first = some (some (motion report40), some (motion report40))
      ∧ slotAfter .lost second = some (some (status report40), some (motion report40))
      ∧ slotAfter .completed second = some (none, some (motion report40))
      ∧ slotAfter .aborted second = some (some (motion (reportView second)), some (motion (reportView second)))
      ∧ slotAfter .completed (waits first) = some (some (motion next), some (motion next))
      ∧ slotAfter .aborted (waits second) = some (some (motion next), some (motion next))
      ∧ slotAfter .lost (waits first) = some (some (motion next), some (motion next))
      ∧ slotAfter .lost (waits second) = some (some (status next), some (motion next))) := by decide

/-- `AttemptEndActsOnThePlace`, a rewritten status page: completed before its motion page it is followed by that page, and the
motion page that completes last leaves the slot empty. -/
theorem test_rewritten_status_page :
    (let motion : Payload := .page (.motion report40.motion)
     let status : Payload := .page (.status report40.status)
     let early (done : Bool) (p : Payload) : State :=
       attemptOf .periodic p
         { sending with
           line.sent := some { report := report40, motionDone := false, statusDone := done }
           line.queue.periodic := some p }
     slotAfter .completed (early false status) = some (some motion, some motion)
      ∧ slotAfter .completed (early true motion) = some (none, some motion)) := by decide

/-- `AttemptEndActsOnThePlace`, the place of an ANNOUNCE: each end, and one with a frame that waits. -/
theorem test_witness_announce_place :
    (let a : Announce := .point { announceOf 742000 with start := true }
     let b : Announce := .point { announceOf 742000 with start := false }
     let s : State :=
      attemptOf (.announce .first) (.announce a)
        { landing .noCage .idle none 0 0 with line.queue.announce := ⟨some a, none⟩ }
     let ends (e : AttemptEnding) (s : State) : Option (Pair (Option Announce)) :=
       after (.attemptEnd e) s (·.line.queue.announce)
     ends .completed s = some ⟨none, none⟩ ∧ ends .lost s = some ⟨some a, none⟩
      ∧ ends .aborted s = some ⟨ownAnnounce s .first true, none⟩
      ∧ [AttemptEnding.completed, .lost, .aborted].all (fun e =>
          ends e { s with line.pendingAnnounce := ⟨some b, none⟩ } == some ⟨some b, none⟩) = true) := by decide

/-- `CancelDropsCalls`: IDLE with a call and SUSPENDED stand as `ReferenceAndPermitSafeKept` keeps them, and CANCEL leaves
TRIP released. -/
theorem test_witness_cancel_safe :
    (let idle : State := { surveyed .idle 500000 with w.seq.list := [fetch8] }
     let rest : State := suspended 500000 (.moving (moving 0))
     ReferenceSafe idle ∧ PermitPlaced idle ∧ ReferenceSafe rest ∧ PermitPlaced rest
      ∧ after .cancel idle (fun t => (tripLevel t, t.w.seq.wind, t.w.seq.list)) = some (false, .idle, [])
      ∧ after .cancel rest (fun t => (tripLevel t, t.w.seq.wind)) = some (false, .idle)
      ∧ after .cancel (answers 8 rest) (fun t => (tripLevel t, t.w.seq.wind)) = some (false, .suspended)) := by
  delta ReferenceSafe PermitPlaced
  decide

/-- `DriveRunningLevelIsTaken` and `FaultResetClearsHeldKinds`: winders on whose levels no rule acts, with a leg under way,
in PREPARING, SUSPENDED, STOPPING and IDLE. -/
theorem test_witness_nothing_due :
    NothingDue (underWay .running) ∧ NothingDue (handshake 0) ∧ NothingDue (suspended 500000 (.moving (moving 0))) := by
  delta NothingDue FaultsSettled
  decide

theorem test_witness_nothing_due_at_rest :
    NothingDue (underWay .stopping) ∧ NothingDue (surveyed .idle 500000)
      ∧ NothingDue (surveyAt 700000 2295113) := by
  delta NothingDue FaultsSettled
  decide

/-- A level of drive RUNNING taken in IDLE leaves the sequencer, and one that drops in RUNNING is R102's. -/
theorem test_drive_level :
    after (.driveRunningChange true) (surveyed .idle 500000) (fun t => (t.w.panel.driveRunning, t.w.seq))
        = some (some true, (surveyed .idle 500000).w.seq)
      ∧ after .faultReset { suspended 500000 (.moving (moving 0)) with w.seq.lockout := true } (·.w.seq)
        = some (suspended 500000 (.moving (moving 0))).w.seq := by decide

/-- `PowerUpAndLossOfSupply`: a loss of supply ends the attempt on the line, and its end then changes nothing. -/
theorem test_loss_ends_attempt :
    (let s : State := { attemptOf .alarm (.alarm 1) queued with line.heardOwn := true }
     after .lossOfSupply s (fun t => (t.line.attempt.isSome, t.line.queue.alarm, outputPins t))
        = some (false, none, OutputPins.none)
      ∧ ((after .lossOfSupply s id).bind fun t => after (.attemptEnd .completed) t (fun u => (u == t, u.step)))
        = some (true, .off)) := by decide

/-- R207: OUT1 and OUT2 of a winder under way, tripped and without supply; OUT1 and the lamps of a landing in CUSTODY;
OUT1 of a loader with LOAD PERMIT; LP4 alone in FAULTED. -/
theorem test_output_pins :
    (after (.driveRunningChange true) (underWay .running) outputPins).map (fun p => (p.out1, p.out2, p.lp4)) = some (true, true, .off)
      ∧ (after (.alarmFrame 6 1) (underWay .running) outputPins).map (fun p => (p.out1, p.out2)) = some (false, false)
      ∧ after .lossOfSupply (underWay .running) outputPins = some OutputPins.none
      ∧ (after (.stopSwitchChange false) (landing .custody .idle (some 8) 6 0) outputPins).map (·.out1) = some true
      ∧ (after (.chuteContactChange false) (skipPoint .loader .loading .idle) outputPins).map (·.out1) = some true
      ∧ after (.alarmFrame 6 1) (landing .noCage .idle none 0 0) outputPins
        = some { OutputPins.none with lp4 := .steady } := by decide

/-- R207: the pins of each role that are not read. -/
theorem test_input_pins :
    (let unread (r : Role) : List Nat := inputPins.filter fun n => (inputFunction r n).isNone
     unread .winder = [13, 14, 15, 16, 17, 18, 19, 20, 21, 22, 23, 24] ∧ unread .landing = [21, 22, 23, 24]
      ∧ unread .loader = (List.range 19).map (· + 6) ∧ unread .tipper = 4 :: (List.range 19).map (· + 6)) := by decide

/-- R207: the commands of pins. Level 24 (11000) to the destination stands at IN13 and IN14, MEN at IN19; DOWN is a survey
request with the selector at SURVEY in IDLE; a momentary input that becomes inactive brings nothing. -/
theorem test_pin_commands :
    (let s : State := winder .idle
     let on (l : List Nat) : BitVec 24 := BitVec.ofNat 24 ((l.map fun n => 2 ^ (n - 1)).sum)
     pinCommand .winder s (on [1, 2]) 1 = some (.driveRunningChange true)
      ∧ pinCommand .winder s (on [3]) 2 = some (.modeSelectorChange false true false)
      ∧ pinCommand .winder s (on [4, 6]) 6 = some (.inspectionDirection false true)
      ∧ pinCommand .winder { s with w.panel.selector := .survey } (on [4, 6]) 6 = some .surveyRequest
      ∧ pinCommand .winder s (on [7, 9]) 7 = some (.resumeRequest false true false)
      ∧ pinCommand .winder s (on [9]) 7 = none ∧ pinCommand .winder s (on [9]) 9 = none
      ∧ pinCommand .landing s (on [1, 4, 13, 14, 19]) 4 = some (.dispatchButton 24 false true false)
      ∧ pinCommand .landing s (on [1]) 2 = some (.gateContactChange true false)
      ∧ pinCommand .landing s (on [12]) 12 = some (.emergencyChange false true)
      ∧ pinCommand .landing s (on [7]) 7 = some .landingResetKey ∧ pinCommand .loader s (on [5]) 5 = some .skipPointResetKey
      ∧ pinCommand .loader s (on [4]) 4 = some (.loadingCompleteInput true) ∧ pinCommand .tipper s (on [4]) 4 = none
      ∧ pinCommand .tipper s (on [3]) 3 = some (.doorContactChange true)
      ∧ pinCommand .tipper s (on []) 2 = some (.skipPresentLost .second)) := by decide

/-- R97, R98 (log 67): a LATE_RESTRICTION under STOP at the sample at which the handshake is met fails the start. -/
theorem test_stop_at_handshake :
    after .positionSample { handshake 94 with w.flt.raised.lateRestriction := true }
      (fun t => (t.w.seq.wind, t.w.seq.permit)) = some (.idle, false) := by decide

/-- What the lamps WAIT, ACCEPTED, CAGE HERE and FAULT of a landing show. -/
def lamps (s : State) : Option (List Lamp) :=
  after (.stopSwitchChange false) s fun t => [t.pins.lampWait, t.pins.lampAccepted, t.pins.lampCageHere, t.pins.lampFault]

/-- `ShaftPointLevelsHold`, the lamps: each row of R159 and what is left where none applies. -/
theorem test_witness_lamps :
    (let away : State := landing .noCage .running none 0 0
     let calls (k : CallStatus) (m : ServiceMark) : State :=
       { away with l.call := some { callRecord .fetch k none with mark := m } }
     lamps away = some [.off, .off, .off, .off]
      ∧ lamps (calls .waiting .none) = some [.steady, .off, .off, .off]
      ∧ lamps (calls .accepted .none) = some [.off, .steady, .off, .off]
      ∧ lamps (calls .accepted .inService) = some [.off, .flashing, .off, .off]
      ∧ lamps (landing .locking .idle (some 8) 6 0) = some [.flashing, .off, .steady, .off]
      ∧ lamps (landing .custody .idle (some 8) 6 0) = some [.off, .off, .flashing, .off]
      ∧ lamps { away with l.flash := some 400 } = some [.off, .off, .off, .flashing]
      ∧ lamps { away with l.flash := some 400, l.breach := true } = some [.off, .off, .off, .steady]
      ∧ lamps { away with l.loops.a := ⟨.short, true, true⟩ } = some [.off, .off, .off, .steady]
      ∧ lamps { away with l.gateClosed := some false } = some [.off, .off, .off, .steady]) := by decide

/-- The winder under way with a kind ACTIVE under SLOW and a SLOW cap in force. -/
def slowed (w : WindState) (silent missed kept : Bool) : State :=
  { underWay w with
    w.flt.kinds.peerSilent := ⟨silent, if silent then .active else .clear⟩
    w.flt.kinds.markerMissed := ⟨missed, if missed then .active else .clear⟩, w.flt.atSample.markerMissed := missed
    w.env.capSlow := some ⟨6000, 7, 9000, false, kept⟩ }

/-- The SLOW cap that an evaluation leaves: its raising point, and whether an event-like kind keeps it. -/
def slowCap (s : State) : Option (Nat × Count × Nat × Bool) :=
  (evaluateEnvelope s).w.env.capSlow.map fun c => (c.value, c.n, c.v0, c.kept)

/-- `GoverningCeilingIsBounded`, the SLOW cap: a lasting kind's stays in RUNNING and in IDLE while PEER_SILENT is ACTIVE, is
lifted without it, and is kept by MARKER_MISSED, whose own stays in RUNNING. -/
theorem test_witness_slow_cap :
    faultState (slowed .running true false false) .peerSilent = .active
      ∧ (wcfg (slowed .running true false false)).reactions.get .peerSilent = .slow
      ∧ slowCap (slowed .running true false false) = some (6000, 7, 9000, false)
      ∧ slowCap (slowed .idle true false false) = some (6000, 7, 9000, false)
      ∧ slowCap (slowed .running false false false) = none ∧ slowCap (slowed .idle false false false) = none
      ∧ slowCap (slowed .running false true false) = some (6000, 7, 9000, true)
      ∧ slowCap (slowed .running false false true) = some (6000, 7, 9000, true) := by decide

/-- `GoverningCeilingIsBounded`, a SLOW cap anew: raised where none is in force, and in IDLE where one that an event-like kind has
kept has lapsed; none without such a kind; and the ceiling within the cap's value, 9,000 at no travel. -/
theorem test_witness_slow_cap_raised :
    (let none' (s : State) : State := { s with w.env.capSlow := none, w.tr.v := ⟨700, -800⟩ }
     slowCap (none' (slowed .running true false false)) = some (1000, 0, 800, false)
      ∧ slowCap (none' (slowed .running false true false)) = some (1000, 0, 800, true)
      ∧ slowCap (none' (slowed .running false false false)) = none
      ∧ (slowCap { slowed .idle true false true with w.tr.v := ⟨700, -800⟩ }).map (·.1) = some 1000
      ∧ governs (slowed .running true false false) = true
      ∧ capValue (slowed .running true false false) ⟨6000, 7, 9000, false, false⟩ = 9000
      ∧ (evaluateEnvelope (slowed .running true false false)).w.env.ceiling ≤ 9000) := by decide

/-- What an evaluation gives: the ceiling, the phase and the reference. -/
def shaped (s : State) : Nat × Phase × Nat × Dir :=
  let e := (evaluateEnvelope s).w.env
  (e.ceiling, e.phase, e.refSpeed, e.refDir)

/-- The winder under way at a depth, far past its acceleration. -/
def atSpeed (w : WindState) (x : Int) : State :=
  { underWay w with w.tr.x := ⟨some x, some 1000000⟩, w.env.acc := some { n := 0, v0 := 20000 } }

/-- `CeilingIsTheLeastTerm`, each term as the least: the top of class EMPTY, the acceleration start latched and kept, the stop term
of chapter 2's 59,373 mm, the end term 50 m above the lower limit, the zone of 18,373 mm, and the passing term at the same
distance: √(3,000² + 2 × 900 × 18,373) is 6,486. -/
theorem test_witness_ceiling :
    shaped (atSpeed .running 500000) = (14000, .full, 14000, .down)
      ∧ shaped { atSpeed .running 500000 with w.env.acc := none } = (400, .creep, 400, .down)
      ∧ shaped { atSpeed .running 500000 with w.env.acc := some { n := 0, v0 := 1000 } } = (1000, .accel, 1000, .down)
      ∧ shaped (atSpeed .running (742240 - 2000 - 59373)) = (10345, .retard, 10345, .down)
      ∧ shaped { atSpeed .running 3000000 with w.seq.leg := some { leg8 .call with target := ⟨none, none⟩ } }
          = (9486, .full, 9486, .down)
      ∧ shaped { atSpeed .running 500000 with w.env.zones := [⟨7, 1, 521373, 518373, 524373, 2000⟩] }
          = (6088, .full, 6088, .down)
      ∧ shaped
          { atSpeed .running 500000 with
            cfg := some (nodeCfg .winder 1 { winderCfg with passWindow := 20000 } Config.noPoint)
            w.tr.x := ⟨some 500000, some 556746⟩ }
          = (6486, .full, 6486, .down) := by decide

/-- `CeilingIsTheLeastTerm`, the halt and run-down terms, a cap, and the reference of each wind state. -/
theorem test_witness_reference :
    shaped { atSpeed .stopping 500000 with w.tr.v := ⟨6000, -6000⟩ } = (6000, .stopping, 6000, .down)
      ∧ shaped { atSpeed .idle 500000 with w.seq.permit := false, w.env.runDown := none, w.tr.v := ⟨200, -300⟩ }
          = (300, .none, 0, .none)
      ∧ shaped { slowed .running true false false with w.env.acc := some { n := 0, v0 := 20000 } }
          = (9000, .full, 9000, .down)
      ∧ shaped (atSpeed .preparing 500000) = (14000, .full, 400, .down)
      ∧ shaped { atSpeed .survey 500000 with w.env.capMode := some ⟨800, 0, 0, true, false⟩ } = (800, .full, 800, .down)
      ∧ shaped { atSpeed .inspection 500000 with w.panel.up := some true } = (14000, .none, 14000, .up)
      ∧ shaped (atSpeed .inspection 500000) = (14000, .none, 0, .none) := by decide

/-- The winder at the end of a leg, with level 24 SILENT under SLOW and the cap that it has raised. -/
def silentAtEnd : State :=
  { slowed .running true false false with
    peers := [landingPeer 5 0 1200, landingPeer 6 8 742240, { landingPeer 8 24 2206410 with heard := .silent }]
    w.tr.origin := some { n0 := 0, q := ⟨528000, 200000⟩ }, w.env.completion := true }

/-- A sample at a count. -/
def sampleAt (n : Count) (s : State) : State := (after .positionSample { s with w.tr.n := n } id).getD s

/-- The wind state and the raising point of the SLOW cap. -/
def capShown (t : State) : WindState × Option (Count × Nat) := (t.w.seq.wind, t.w.env.capSlow.map fun c => (c.n, c.v0))

/-- R35, R117: the cap of a lasting kind stays with its raising point from the end of its leg through IDLE and at the start of
the next one; one that a sample in IDLE has raised is gone at the next, which raises another. -/
theorem test_slow_cap_crosses_wind_states :
    (let drop (s : State) : State := (after (.driveRunningChange false) s id).getD s
     let idle : State := { silentAtEnd with w.seq.wind := .idle, w.seq.permit := false, w.env.capSlow := none }
     capShown (drop silentAtEnd) = (.idle, some (7, 9000))
      ∧ capShown (sampleAt 20 (drop silentAtEnd)) = (.idle, some (7, 9000))
      ∧ capShown (drop { silentAtEnd with w.seq.list := [fetch0] }) = (.preparing, some (7, 9000))
      ∧ capShown (sampleAt 20 idle) = (.idle, some (20, 0))
      ∧ capShown (sampleAt 30 (sampleAt 20 idle)) = (.idle, some (30, 0))) := by decide

/-- `CeilingIsTheLeastTerm`, the SLOW cap of a sample by that sample's own fault states: MARKER_MISSED raised for it raises the cap
in RUNNING, and PEER_SILENT keeps one. By the model's choice (log 77) a lasting kind's cap keeps its raising point where it ceases
as MARKER_MISSED becomes ACTIVE. -/
theorem test_slow_cap_of_a_sample :
    (let run (silent : Bool) : State := if silent then silentAtEnd else { silentAtEnd with peers := shaft }
     let missed (s : State) : State := { s with w.flt.raised.markerMissed := true }
     capShown (sampleAt 20 (missed { run false with w.env.capSlow := none })) = (.running, some (20, 0))
      ∧ capShown (sampleAt 20 (run true)) = (.running, some (7, 9000)) ∧ capShown (sampleAt 20 (run false)) = (.running, none)
      ∧ capShown (sampleAt 20 (missed (run false))) = (.running, some (7, 9000))) := by decide

/-- `ListenEndEntersTheRole`: a landing with EMERGENCY active queues its ALARM. -/
theorem test_witness_listen_end_emergency :
    emergency { listening (landing .starting .idle (some 8) 0 0) with l.emergency1 := some true } = true
      ∧ after .listenTimerExpiry { listening (landing .starting .idle (some 8) 0 0) with l.emergency1 := some true }
          (fun t => (t.step, t.line.queue.alarm)) = some (.run, some 1#4) := by decide

/-- The overwind memory of A after a sample with A at a depth: its upper limit is −5,000, its lower 3,050,000. -/
def memoryAt (x : Int) (m : OverwindMemory) : Option OverwindMemory :=
  after .positionSample
    { surveyed .idle 0 with w.tr.origin := some { n0 := 0, q := ⟨x + 27999, 200000⟩ }, w.seq.overwind := ⟨m, .none⟩ }
    (·.w.seq.overwind.a)

/-- `PositionSampleTracks`, the overwind memory: at each limit and 1 mm beyond, and 1,000 mm within it and 1 mm less. -/
theorem test_witness_overwind_memory :
    memoryAt (-5001) .none = some .upper ∧ memoryAt (-5000) .none = some .none
      ∧ memoryAt (-4001) .upper = some .upper ∧ memoryAt (-4000) .upper = some .none
      ∧ memoryAt 3050001 .none = some .lower ∧ memoryAt 3050000 .none = some .none
      ∧ memoryAt 3049001 .lower = some .lower ∧ memoryAt 3049000 .lower = some .none
      ∧ memoryAt 3050001 .upper = some .lower ∧ memoryAt (-5001) .lower = some .upper
      ∧ after .positionSample { surveyed .idle 0 with w.tr.origin := none, w.seq.overwind := ⟨.upper, .lower⟩ }
          (fun t => (t.w.tr.x.a, t.w.seq.overwind)) = some (none, ⟨.upper, .lower⟩) := by decide

/-- What a command makes of a start in PREPARING: the wind state, the list, the lockout, and the cause of a record. -/
def startAfter (c : Instr) (s : State) : Option (WindState × List Call × Bool × Option Cause) :=
  after c s fun t => (t.w.seq.wind, t.w.seq.list, t.w.seq.lockout, t.w.seq.record.map (·.cause))

/-- Whether the call of the start returns to the head of the list, without a lockout. -/
def returned (c : Instr) (s : State) : Bool := startAfter c s == some (.idle, [fetch8, fetch0], false, none)

/-- Whether the record is re-captured with a cause. -/
def recaptured (c : Instr) (s : State) (k : Cause) : Bool := startAfter c s == some (.suspended, [], false, some k)

/-- A RESUME leg in PREPARING of the record of the leg to level 8. -/
def resuming : State :=
  { underWay .preparing with
    w.seq.leg := some (leg8 .resume), w.seq.slot := [], w.seq.record := some (lost (.moving { moving 1 with inProgress := true })) }

/-- Level 8's landing reports STOP_HOLD, with other flags as given. -/
def holding (breach doubt : Bool) : StateReport :=
  .landing { landingState 8 with stopHold := true, breach := breach, first.doubt := doubt }

/-- A winder that takes no reaction but REPORT to GATE_BREACH and SLOW to TRACKING. -/
def lenient (s : State) : State :=
  { s with
    cfg := some (nodeCfg .winder 1
      { winderCfg with reactions := { Config.defaultReactions with gateBreach := .report, tracking := .slow } } Config.noPoint) }

/-- A winder with PEER_SILENT under STOP. -/
def strict (s : State) : State :=
  { s with cfg := some (nodeCfg .winder 1 { winderCfg with reactions.peerSilent := .stop } Config.noPoint) }

/-- `FailedStartReturnsItsCalls`, a start condition lost: the call returns without a lockout, from a landing off the leg too. -/
theorem test_witness_lost_start :
    (let called : State := { underWay .preparing with w.seq.list := [fetch0] }
     InWind called .preparing ∧ called.w.seq.leg = some (leg8 .call) ∧ HeardFrom called 6
      ∧ (peerOf called 6).role = .point (pointOfState (holding false false))
      ∧ isMember called (peerOf called 6) = true ∧ (peerOf called 7).silence.isSome = true
      ∧ returned (.stateFrame 6 (holding false false)) called = true
      ∧ returned (.stateFrame 7 (.landing { landingState 16 with gate := .closed })) called = true
      ∧ returned (.stateFrame 7 (.landing { landingState 16 with breach := true })) called = true
      ∧ returned (.silenceTimeout 7) (strict called) = true
      ∧ returned (.modeSelectorChange false false true) called = true) := by
  delta InWind Runs HeardFrom Receives
  decide

/-- `FailedStartReturnsItsCalls`, R98's causes of a RESUME leg: the node, the kind of a flag that its STATE carries whatever
that kind's reaction, a kind under STOP, the selector; and R127's target turned away. -/
theorem test_witness_lost_resume :
    InWind resuming .preparing ∧ resuming.w.seq.record.isSome = true
      ∧ recaptured (.stateFrame 6 (holding false false)) resuming (.node 6) = true
      ∧ recaptured (.stateFrame 6 (holding false true)) (lenient resuming) (.fault .tracking) = true
      ∧ recaptured (.stateFrame 6 (holding true false)) (lenient resuming) (.fault .gateBreach) = true
      ∧ recaptured (.stateFrame 6 (holding true false)) resuming (.fault .gateBreach) = true
      ∧ recaptured (.silenceTimeout 7) (strict resuming) (.fault .peerSilent) = true
      ∧ recaptured (.modeSelectorChange false false true) resuming .selector = true
      ∧ legTarget resuming = some (.level 8) ∧ landingAt resuming 1 8 = some (peerOf resuming 6)
      ∧ recaptured (.silenceTimeout 6) resuming (.node 6) = true
      ∧ startAfter (.silenceTimeout 7) resuming = some (.preparing, [], false, some .driveLost)
      ∧ recaptured (.stateFrame 6 (.landing { landingState 8 with outOfService := true })) resuming (.node 6) = true
      ∧ recaptured (.stateFrame 6 (.landing { landingState 8 with outOfService := true, first.doubt := true }))
          (lenient resuming) (.fault .tracking) = true
      ∧ recaptured (.stateFrame 6 (.landing { landingState 8 with outOfService := true, breach := true }))
          (lenient resuming) (.fault .gateBreach) = true := by
  delta InWind Runs
  decide

/-- `FailedStartReturnsItsCalls`, a target turned away with no other call waiting: the landing, and a pair's point. -/
theorem test_witness_lost_target :
    (let pair : State :=
       { rock 800000 with
         w.seq.wind := .preparing, w.seq.slot := [readyOf 30 3, readyOf 31 4], w.seq.list := [], w.seq.permit := true
         w.seq.leg := some { kind := .pair, dir := .up, target := ⟨some 0, some 800000⟩, need := none } }
     (underWay .preparing).w.seq.slot.length = (if isRock (underWay .preparing) then 2 else 1)
      ∧ startAfter (.silenceTimeout 6) (underWay .preparing) = some (.idle, [fetch8], false, none)
      ∧ InWind pair .preparing ∧ legTarget pair = some (.points ⟨31, 30⟩)
      ∧ pair.w.seq.slot.length = (if isRock pair then 2 else 1)
      ∧ startAfter (.silenceTimeout 31) pair = some (.idle, [readyOf 30 3, readyOf 31 4], false, none)
      ∧ recaptured (.silenceTimeout 30)
          { suspendedRock 500000 with
            w.seq.wind := .preparing, w.seq.permit := true
            w.seq.leg := some { kind := .resume, dir := .up, target := ⟨some 0, some 800000⟩, need := none } }
          (.node 30) = true) := by
  delta InWind Runs
  decide

/-- INSPECTION at a selector position with the drive RUNNING or not. -/
def inspecting (p : ModePosition) (on : Bool) : State :=
  { winder .inspection with w.panel.selector := p, w.panel.driveRunning := some on }

/-- The wind state and PERMIT after a command. -/
def windAfter (c : Instr) (s : State) : Option (WindState × Bool) := after c s fun t => (t.w.seq.wind, t.w.seq.permit)

/-- `SelectorIsTaken`, the leaving of INSPECTION: by the selector and by the drive, with a record and without, and where it
stays. -/
theorem test_witness_leaving_inspection :
    (let kept (s : State) : State := { s with w.seq.record := some (lost (.moving (moving 0))) }
     InWind (inspecting .inspection true) .inspection ∧ FaultsSettled (inspecting .inspection true)
      ∧ tripLevel (inspecting .inspection true) = false ∧ FaultsSettled (kept (inspecting .normal true))
      ∧ windAfter (.modeSelectorChange true false false) (inspecting .inspection false) = some (.idle, false)
      ∧ windAfter (.modeSelectorChange true false false) (kept (inspecting .inspection false)) = some (.suspended, false)
      ∧ windAfter (.modeSelectorChange true false false) { inspecting .inspection true with w.seq.permit := true }
          = some (.inspection, false)
      ∧ windAfter (.modeSelectorChange false false true) (inspecting .inspection false) = some (.inspection, false)
      ∧ windAfter (.modeSelectorChange false false false) (inspecting .inspection false) = some (.inspection, false)
      ∧ windAfter (.driveRunningChange false) (inspecting .normal true) = some (.idle, false)
      ∧ windAfter (.driveRunningChange false) (kept (inspecting .normal true)) = some (.suspended, false)) := by
  delta InWind Runs FaultsSettled
  decide

/-- `SelectorIsTaken` and `SurveyRequestStartsOrRefuses`, R35: the MODE cap from entry to INSPECTION and SURVEY, and none after
INSPECTION. -/
theorem test_mode_cap :
    (let cap (c : Instr) (s : State) : Option (Option (Nat × Bool)) :=
       after c s fun t => t.w.env.capMode.map fun c => (c.value, c.flat)
     let inside : State := { inspecting .inspection false with w.env.capMode := some ⟨1000, 0, 0, true, false⟩ }
     cap (.modeSelectorChange false true false) (winder .idle) = some (some (1000, true))
      ∧ cap .surveyRequest (atBank (-27999)) = some (some (800, true))
      ∧ cap (.modeSelectorChange false false true) inside = some (some (1000, true))
      ∧ cap (.modeSelectorChange true false false) inside = some none) := by decide

/-- INSPECTION run DOWN, PERMIT held, with the drive RUNNING or not. -/
def lowering (on : Bool) : State :=
  { inspecting .inspection on with w.seq.permit := true, w.panel.down := some true, w.panel.heldDir := .down }

/-- `InspectionPermitRisesAndFalls`: neither input with the drive at rest and not, a reversal, the same direction, and each
memory. -/
theorem test_witness_inspection_permit :
    (let remembers (m : OverwindMemory) (s : State) : State := { s with w.seq.overwind := ⟨m, .none⟩ }
     let run (up down : Bool) (s : State) : Option (WindState × Bool) := windAfter (.inspectionDirection up down) s
     InWind (lowering false) .inspection ∧ FaultsSettled (lowering false) ∧ inspectionFit (lowering false) = true
      ∧ run false false (lowering false) = some (.inspection, false)
      ∧ run false false (lowering true) = some (.inspection, true)
      ∧ run true false (lowering true) = some (.inspection, false)
      ∧ run true false (lowering false) = some (.inspection, true)
      ∧ run false true (lowering true) = some (.inspection, true)
      ∧ memoryPermits (remembers .lower (lowering false)) .down = false
      ∧ run false true (remembers .lower (lowering false)) = some (.inspection, false)
      ∧ run true false (remembers .lower (lowering false)) = some (.inspection, true)
      ∧ run true false (remembers .upper (lowering false)) = some (.inspection, false)) := by
  delta InWind Runs FaultsSettled
  decide

/-- `InspectionPermitRisesAndFalls`, R107 and R109: PERMIT rises at a new activation of a direction, not at the end of a hold
while the direction stays, nor with an enclosure open. -/
theorem test_permit_rises :
    (let still : State := { inspecting .inspection false with w.seq.permit := false }
     let opened (s : State) : State :=
       { s with
         peers := [{ landingPeer 6 8 742240 with
                     snapshot := some (.state (.landing { landingState 8 with gate := .opened })) }] }
     windAfter (.inspectionDirection true false) still = some (.inspection, true)
      ∧ windAfter (.inspectionDirection true false) { still with w.panel.up := some true } = some (.inspection, false)
      ∧ windAfter (.inspectionDirection true true) still = some (.inspection, false)
      ∧ windAfter (.inspectionDirection true false) (opened still) = some (.inspection, false)
      ∧ windAfter (.stateFrame 6 (.landing (landingState 8))) { opened still with w.panel.up := some true }
          = some (.inspection, false)) := by decide

/-- A survey point of the shaft at a level and depth, as the winder has heard and learned it. -/
def withLanding (n level : Nat) (stop : Int) (s : State) : State :=
  { s with peers := s.peers ++ [landingPeer n level stop], w.tr.learned.a := s.w.tr.learned.a ++ [learnedAt n stop] }

/-- `ResumeIsRefusedOrStartsTheLeg`, NEAREST: of two landings at one depth the lower level, and not a CONFLICT point, one
without landing, or for MEN one that serves no men. -/
theorem test_witness_nearest_tie :
    (let s : State := suspended 1500000 (.moving (moving 0))
     let beside (p : Peer → Peer) : State := { s with peers := s.peers.map fun q => if q.node = 7 then p q else q }
     let ahead (s : State) : Option ResumeTarget := formTarget s (moving 0) .nearestAhead
     ahead (withLanding 9 12 1513380 s) = some (.level 12) ∧ ahead (withLanding 9 20 1513380 s) = some (.level 16)
      ∧ ahead s = some (.level 16) ∧ ahead (beside fun q => { q with conflict := true }) = some (.level 24)
      ∧ ahead (beside fun q => { q with geometry := [{ geometry 16 1513380 with hasLanding := false }] }) = some (.level 24)
      ∧ ahead { beside (fun q => { q with geometry := [{ geometry 16 1513380 with servesMen := false }] }) with
                w.tr.cls.a := .men } = some (.level 24)) := by decide

/-- Whether an ALARM that trips the winder leaves a record of this phase, with this count and target or this parked level. -/
def captures (s : State) (phase : Phase) (moved : Option (Nat × ResumeTarget)) (level : Option Nat) : Bool :=
  let shown (r : Record) : Option (Nat × ResumeTarget) × Option Nat :=
    match r.kind with
    | .moving m => (some (m.count, m.target), none)
    | .parked p => (none, some p.level)
  after (.alarmFrame 6 1) s (fun t => (t.w.seq.wind, t.w.seq.record.map fun r => (r.phase, shown r)))
    == some (.tripped, some (phase, moved, level))

/-- `AlarmFrameTripsAndCaptures`: what is captured in each state. -/
theorem test_witness_trip_capture :
    (let named : State := { parkedAt8 with w.seq.custodian := some 6 }
     let at8 (n : Nat) : Option (Nat × ResumeTarget) := some (n, .level 8)
     HeardFrom (underWay .running) 6 ∧ coversWinder (underWay .running) 1 = true ∧ FaultsSettled (underWay .running)
      ∧ tripLevel (underWay .running) = false ∧ (underWay .running).w.flt.trip = false
      ∧ FaultsSettled (underWay .preparing) ∧ FaultsSettled (underWay .stopping) ∧ FaultsSettled named
      ∧ captures (underWay .preparing) .creep (at8 0) none = true
      ∧ captures { underWay .preparing with w.env.acc := some ⟨0, 400⟩ } .full (at8 0) none = true
      ∧ captures (underWay .running) .full (at8 0) none = true
      ∧ captures (underWay .stopping) .stopping (at8 0) none = true
      ∧ captures resuming .creep (at8 1) none = true ∧ captures named .none none (some 8) = true) := by
  delta HeardFrom Receives FaultsSettled
  decide

/-- `AlarmFrameTripsAndCaptures`, where no wind is interrupted: a record stays, and a parked cage without a custodian leaves
none. -/
theorem test_witness_trip_at_rest :
    (let kept (s : State) : Bool :=
       after (.alarmFrame 6 1) s (fun t => (t.w.seq.wind, t.w.seq.record)) == some (.tripped, s.w.seq.record)
     kept parkedAt8 && kept (winder .inspection) && kept (suspended 500000 (.moving (moving 2)))) = true := by decide

/-- `AlarmFrameTripsAndCaptures`, a pair: its skip points by the compartments of the calls. -/
theorem test_witness_trip_of_a_pair :
    (let pair (l : List Call) : State :=
       { rock 500000 with
         w.seq.wind := .running, w.seq.slot := l, w.seq.permit := true
         w.seq.leg := some { kind := .pair, dir := .up, target := ⟨some 0, some 800000⟩, need := none } }
     let target (s : State) : Option (Option RecordKind) :=
       after (.alarmFrame 30 12) s fun t => t.w.seq.record.map (·.kind)
     let kept (l : List Call) (a b : Nat) : Option (Option RecordKind) :=
       some (some (.moving { calls := l, dir := .up, target := .points ⟨a, b⟩, count := 0, inProgress := false }))
     target (pair [readyOf 30 3, readyOf 31 4]) = kept [readyOf 30 3, readyOf 31 4] 31 30
      ∧ target (pair [readyOf 31 4, readyOf 30 3]) = kept [readyOf 31 4, readyOf 30 3] 31 30) := by decide

/-- `CallFrameIsAnswered`: a DISPATCH merged with one that waits takes the new class. -/
theorem test_witness_merged_dispatch :
    (let sent (c : LoadClass) : Call := { fetch8 with kind := .dispatch, dest := some 16, cls := some c }
     let s : State := { surveyed .running 742240 with w.seq.custodian := some 6, w.seq.list := [fetch0, sent .men] }
     (callEntry s 6 (.dispatch 8 16 .material)).map (verdictOn (hear 6 s)) = some (.merged 7)
      ∧ after (.callFrame 6 ⟨1, .dispatch 8 16 .material⟩) s (·.w.seq.list) = some [fetch0, sent .material]) := by decide

/-- A frame with the check that its bits have. -/
def checked (kind sender : Nat) (data : List Byte) : RawFrame :=
  let p : BitVec 9 := BitVec.ofNat 9 (64 * kind + sender)
  let l : BitVec 5 := BitVec.ofNat 5 data.length
  { priority := p, length := l, data := data, check := checkOf p l data }

/-- Zeros of a length with some bytes set. -/
def bytes (n : Nat) (l : List (Nat × Byte)) : List Byte := l.foldl (fun d p => d.set p.1 p.2) (List.replicate n 0)

/-- Whether a frame of node 7 is read. -/
def isRead (kind : Nat) (data : List Byte) : Bool := (decodeFrame (checked kind 7 data)).isSome

set_option maxRecDepth 8000 in
/-- `ReceivedFrameIsCheckedAndDelivered`, the frames discarded: senders, kinds, lengths, an ALARM, a MARKER, the codes of
CALL, ANSWER and ANNOUNCE, each with the last one assigned. -/
theorem test_witness_discarded :
    ((decodeFrame (checked 0 1 [1])).isSome && (decodeFrame (checked 0 40 [1])).isSome
      && (decodeFrame (checked 0 0 [1])).isNone && (decodeFrame (checked 0 41 [1])).isNone
      && (decodeFrame { checked 0 7 [1] with check := 0 }).isNone
      && !isRead 7 [] && !isRead 0 [] && !isRead 0 [1, 1]
      && isRead 1 [4, 0] && !isRead 1 [5, 0] && !isRead 1 [0, 0]
      && isRead 4 (bytes 4 [(1, 64), (2, 160)]) && !isRead 4 (bytes 4 [(1, 64), (2, 192)])
      && isRead 4 (bytes 4 [(1, 128), (3, 4)]) && !isRead 4 (bytes 4 [(1, 128), (3, 5)]) && !isRead 4 (bytes 4 [(1, 160)])
      && isRead 5 (bytes 6 [(1, 16), (2, 9)]) && !isRead 5 (bytes 6 [(1, 16), (2, 10)]) && !isRead 5 (bytes 6 [(1, 160)])
      && isRead 6 (bytes 14 [(1, 4)]) && !isRead 6 (bytes 14 [(1, 0)])) = true := by decide

set_option maxRecDepth 8000 in
/-- `ReceivedFrameIsCheckedAndDelivered`, the codes of STATE and MOTION, each with the last one assigned; the second
compartment of a STATE alone may be 0, and a STATE of a WINDER is read (log 19). -/
theorem test_witness_discarded_states :
    (isRead 3 (bytes 5 [(0, 64), (1, 96), (3, 1), (4, 4)]) && !isRead 3 (bytes 5 [(0, 64), (1, 112), (3, 1)])
      && !isRead 3 (bytes 5 [(0, 64)]) && !isRead 3 (bytes 5 [(0, 64), (3, 1), (4, 5)])
      && isRead 3 (bytes 5 [(0, 128), (1, 112), (3, 1), (4, 192)]) && !isRead 3 (bytes 5 [(0, 128), (1, 128), (3, 1)])
      && !isRead 3 (bytes 5 [(0, 128), (3, 193)]) && !isRead 3 (bytes 5 [(0, 128), (3, 1), (4, 193)])
      && isRead 3 (bytes 5 [(1, 255), (3, 255), (4, 255)])
      && isRead 2 (bytes 16 [(0, 8), (12, 160), (13, 85)]) && !isRead 2 (bytes 16 [(0, 9)])
      && !isRead 2 (bytes 16 [(12, 192)]) && !isRead 2 (bytes 16 [(12, 48)]) && !isRead 2 (bytes 16 [(13, 96)])
      && !isRead 2 (bytes 16 [(13, 6)])
      && isRead 2 (bytes 16 [(0, 216), (3, 128), (8, 63)]) && !isRead 2 (bytes 16 [(0, 224)])
      && !isRead 2 (bytes 16 [(0, 128), (3, 160)]) && !isRead 2 (bytes 16 [(0, 128), (8, 32)])
      && !isRead 2 (bytes 16 [(0, 128), (8, 192)])) = true := by decide

/-- What a command makes of a leg under way: the wind state, the cause kept, and whether its leg, its PERMIT and the absence
of a halt latch stay. -/
def stopAfter (c : Instr) (s : State) : Option (WindState × Option Cause × Bool) :=
  after c s fun t =>
    (t.w.seq.wind, t.w.seq.stopCause, t.w.seq.leg == s.w.seq.leg && t.w.seq.permit == s.w.seq.permit && t.w.env.halt.isNone)

/-- Whether a command takes a leg in RUNNING to STOPPING with a cause. -/
def stopsWith (c : Instr) (s : State) (k : Cause) : Bool := stopAfter c s == some (.stopping, some k, true)

/-- The winder under way with the latest sample at its position. -/
def runningLeg : State := { underWay .running with w.tr.origin := some { n0 := 0, q := ⟨528000, 200000⟩ } }

/-- `ControlledStopLeavesRunning`: a hold, an open enclosure, a GATE_BREACH and a silence under STOP, and each kind of a
sample. -/
theorem test_witness_controlled_stop :
    (let open' : StateReport := .landing { landingState 16 with gate := .opened }
     let sampled' (f : PerFault Bool) : State := { runningLeg with w.flt.raised := f }
     let none' : PerFault Bool := runningLeg.w.flt.raised
     let missedStops (s : State) : State :=
       { s with cfg := some (nodeCfg .winder 1 { winderCfg with reactions.markerMissed := .stop } Config.noPoint) }
     InWind runningLeg .running ∧ runningLeg.w.seq.leg = some (leg8 .call) ∧ isMember runningLeg (peerOf runningLeg 7) = true
      ∧ runningLeg.w.env.completion = false ∧ none'.tracking = false
      ∧ stopsWith (.stateFrame 6 (holding false false)) runningLeg (.node 6) = true
      ∧ stopsWith (.stateFrame 7 open') runningLeg (.node 7) = true
      ∧ stopsWith (.stateFrame 7 (.landing { landingState 16 with breach := true })) runningLeg (.fault .gateBreach) = true
      ∧ stopsWith (.silenceTimeout 7) (strict runningLeg) (.fault .peerSilent) = true
      ∧ stopsWith .positionSample (sampled' { none' with tracking := true }) (.fault .tracking) = true
      ∧ stopsWith .positionSample (sampled' { none' with lateRestriction := true }) (.fault .lateRestriction) = true
      ∧ stopsWith .positionSample (missedStops (sampled' { none' with markerMissed := true })) (.fault .markerMissed)
          = true) := by
  delta InWind Runs
  decide

/-- `ControlledStopLeavesRunning`: after the completion flag the leg goes on, and in STOPPING the cause stays. -/
theorem test_witness_no_controlled_stop :
    stopAfter (.stateFrame 6 (holding false false)) { runningLeg with w.env.completion := true }
        = some (.running, none, true)
      ∧ stopAfter (.stateFrame 6 (holding false false)) { runningLeg with w.seq.wind := .stopping, w.seq.stopCause := some (.node 9) }
        = some (.stopping, some (.node 9), true)
      ∧ after (.stateFrame 6 (holding false false))
          { runningLeg with w.seq.wind := .stopping, w.seq.stopCause := some (.node 9), w.env.halt := some ⟨3, 900⟩ }
          (·.w.env.halt) = some (some ⟨3, 900⟩)
      ∧ after .positionSample
          { nearing 770189 with w.flt.raised := { (nearing 770189).w.flt.raised with tracking := true } }
          (fun t => (t.w.seq.wind, t.w.env.completion)) = some (.running, true) := by decide

/-- The winder in IDLE with A at a depth. -/
def resting (x : Int) : State := { surveyed .idle x with w.tr.origin := some { n0 := 0, q := ⟨x + 28000 - 1, 200000⟩ } }

/-- Whether a sample leaves this parked level, custodian and last custodian. -/
def parks (s : State) (level custodian last : Option Nat) : Bool :=
  after .positionSample s (fun t => (t.w.seq.parked.map (·.1), t.w.seq.custodian, t.w.seq.last))
    == some (level, custodian, last)

/-- `ParkedLevelAndCustodyAtASample`, the parked level: 50 mm off level 8 and 51, the nearer and, at equal distance, the
lower of two levels, a CONFLICT landing, and a rock winder. -/
theorem test_witness_parked_level :
    InWind (resting 742290) .idle ∧ (resting 742290).w.sampleTimer.isSome = true
      ∧ parks (resting 742290) (some 8) none none = true ∧ parks (resting 742291) none none none = true
      ∧ parks (withLanding 9 4 742280 (resting 742250)) (some 8) none none = true
      ∧ parks (withLanding 9 4 742280 (resting 742260)) (some 4) none none = true
      ∧ parks (withLanding 9 12 742280 (resting 742260)) (some 8) none none = true
      ∧ parks { resting 742240 with peers := [{ landingPeer 6 8 742240 with conflict := true }] } none none none = true
      ∧ parks (rock 0) none none none = true := by
  delta InWind Runs
  decide

/-- `ParkedLevelAndCustodyAtASample`, custody: it stays at its landing, ends off level and with the last custodian's own stop
left, and is restored. -/
theorem test_witness_custody_at_a_sample :
    (let held (x : Int) (c l : Option Nat) : State := { resting x with w.seq.custodian := c, w.seq.last := l }
     let restoring (x : Int) : State := { resting x with w.seq.restoration := some (6, 8) }
     parks (held 742240 (some 6) (some 6)) (some 8) (some 6) (some 6) = true
      ∧ parks (held 742240 (some 6) (some 7)) (some 8) (some 6) none = true
      ∧ parks (held 742291 (some 6) (some 6)) none none none = true
      ∧ parks (held 742240 (some 7) none) (some 8) none none = true
      ∧ parks (held 742240 none (some 6)) (some 8) none (some 6) = true
      ∧ parks (held 742291 none (some 6)) none none none = true
      ∧ parks (restoring 742240) (some 8) (some 6) none = true
      ∧ parks (restoring 742291) none none none = true
      ∧ after .positionSample (restoring 742240) (·.w.seq.restoration) = some none) := by decide

/-- `ParkedLevelAndCustodyAtASample`, the calls completed: a FETCH and a RELEVEL of the level parked anew, one dropping
kept. -/
theorem test_witness_parked_completes :
    (let dropping : Call := { fetch8 with mark := some 0 }
     let s : State :=
       answers 8 { resting 742240 with
         w.seq.list := [fetch8, { fetch8 with kind := .relevel }, dropping], w.seq.releaseHold := some 50 }
     after .positionSample s (fun t => (t.w.seq.wind, t.w.seq.parked, t.w.seq.list))
        = some (.idle, some (8, 6), [dropping])) := by decide

/-- `LandingInputsAct`, R143: the gate locked with the cage here is a claim, unlocked it is CAGE_HERE, and a breach keeps it
so. -/
theorem test_witness_gate_evaluates :
    (let here (locked breach : Bool) : State :=
       { landing .cageHere .idle (some 8) 0 0 with l.gateLocked := some locked, l.breach := breach }
     let leads (c l : Bool) (s : State) : Option (LandingState × Bool) :=
       after (.gateContactChange c l) s fun t => (t.l.state, t.l.breach)
     leads true true (here false false) = some (.claiming, false) ∧ leads true true (here false true) = some (.cageHere, true)
      ∧ leads true false { here true false with l.state := .claiming } = some (.cageHere, false)
      ∧ leads false false { here true false with l.state := .claiming } = some (.cageHere, true)
      ∧ leads true false { here false false with l.state := .claiming } = some (.claiming, false)
      ∧ leads true true { landing .locking .idle (some 8) 6 0 with l.gateLocked := some false, l.outKey := some true }
          = some (.releasing, false)) := by decide

/-- `ResetKeysClearFlags`, a landing: a breach cleared gives the claim, in CUSTODY the state stays, and one not cleared leaves
CAGE_HERE. -/
theorem test_witness_reset_evaluates :
    (let breached (st : LandingState) : State := { landing st .idle (some 8) 0 0 with l.breach := true }
     let reset (s : State) : Option (LandingState × Bool) := after .landingResetKey s fun t => (t.l.state, t.l.breach)
     reset (breached .cageHere) = some (.claiming, false)
      ∧ reset { breached .cageHere with l.gateLocked := some false } = some (.cageHere, true)
      ∧ reset (breached .custody) = some (.custody, false)
      ∧ reset (landing .cageHere .idle (some 8) 0 0) = some (.cageHere, false)) := by decide

/-- `ResetKeysClearFlags`, R173's NO_SKIP row: the marked skip that stands in position, 200 mm off and 201. -/
theorem test_witness_reset_marked :
    (let at' (x : Int) : State :=
       { skipPoint .loader .noSkip .idle with
         peers := [winderPeer (motion .idle x 0) (status .rock .idle 3 4 none 0 0)], k.mark := ⟨true, false⟩ }
     let reset (s : State) : Option (PointState × Bool × Bool) :=
       after .skipPointResetKey s fun t => (t.k.state, t.k.posted, t.k.mark.a)
     (pointView (at' 3452200)).isSome = true ∧ reset (at' 3452200) = some (.loaded, true, false)
      ∧ after .skipPointResetKey (at' 3452200) (·.line.queue.call) = some [⟨1, .ready 3⟩]
      ∧ reset (at' 3452201) = some (.noSkip, false, true)
      ∧ reset { at' 3452200 with k.closed := some false, k.chuteHold := true } = some (.noSkip, false, true)) := by decide

/-- A point of two served compartments, 3 and 4. -/
def twoSkips (r : Role) (st : PointState) : State :=
  { skipPoint r st .idle with
    cfg := some (nodeCfg r 30 Config.noWinder { skipCfg with second := some { skipCfg.first with comp := 4 } }) }

/-- `SkipPresenceActs`: the edge of a skip at its stop, 201 mm off, under a winder that is not IDLE, with its mark, with the
door open, and with another skip present; the edge of a second skip. -/
theorem test_witness_edge_in_position :
    (let edge (s : State) : Option (PointState × Option Which) :=
       after (.skipPresentEdge .first) { s with k.present := ⟨false, s.k.present.b⟩ } fun t => (t.k.state, t.k.working)
     edge (skipPoint .loader .noSkip .idle) = some (.loading, some .first)
      ∧ edge { skipPoint .loader .noSkip .idle with k.closed := some false } = some (.inPosition, some .first)
      ∧ edge (skipPoint .tipper .noSkip .idle) = some (.inPosition, some .first)
      ∧ edge { skipPoint .tipper .noSkip .idle with k.closed := some false } = some (.dumping, some .first)
      ∧ edge (skipPoint .loader .noSkip .running) = some (.noSkip, none)
      ∧ edge { skipPoint .loader .noSkip .idle with k.mark := ⟨true, false⟩ } = some (.noSkip, none)
      ∧ edge { twoSkips .loader .noSkip with k.present := ⟨false, true⟩ } = some (.noSkip, none)
      ∧ after (.skipPresentEdge .second) (twoSkips .tipper .inPosition) (fun t => (t.k.state, t.k.working))
          = some (.noSkip, none)) := by decide

/-- `SkipPresenceActs`, DOOR_HOLD at a loss: of the working skip in DUMPING with the other present, of the last skip in any state
with the door open, of one of two, and with the door closed. -/
theorem test_witness_door_hold :
    (let both (st : PointState) (closed : Bool) : State :=
       { twoSkips .tipper st with k.closed := some closed, k.present := ⟨true, true⟩ }
     let one (st : PointState) (closed : Bool) : State := { both st closed with k.present := ⟨true, false⟩ }
     let held (s : State) : Option (PointState × Bool) :=
       after (.skipPresentLost .first) s fun t => (t.k.state, t.k.doorHold)
     held (both .dumping false) = some (.noSkip, true) ∧ held (both .doorStuck false) = some (.noSkip, true)
      ∧ held (one .dumped false) = some (.noSkip, true)
      ∧ held { one .noSkip false with k.working := none } = some (.noSkip, true)
      ∧ held (both .dumped false) = some (.noSkip, false) ∧ held (both .doorStuck true) = some (.noSkip, false)) := by decide

/-- `LoaderAndTipperInputsAct`: a hold flag withdraws READY, from a posted LOADED or DUMPED and from READY. -/
theorem test_witness_hold_withdraws :
    (let posted (r : Role) (st : PointState) : State :=
       { skipPoint r st .idle with
         k.posted := true, k.call := some ⟨3, .waiting, none⟩, k.callTimer := some 40 }
     let left (c : Instr) (s : State) : Option (PointState × Bool × Bool) :=
       after c s fun t => (t.k.state, t.k.posted || t.k.call.isSome || t.k.callTimer.isSome, (skipReport t).first.ready)
     left (.chuteContactChange false) (posted .loader .loaded) = some (.loaded, false, false)
      ∧ left (.chuteContactChange false) (posted .loader .ready) = some (.loaded, false, false)
      ∧ left (.doorContactChange false) (posted .tipper .dumped) = some (.dumped, false, false)
      ∧ left (.doorContactChange false) (posted .tipper .ready) = some (.dumped, false, false)
      ∧ (posted .loader .ready).k.present.at .first = true) := by decide

/-! ## Small tests of the families, from the manual's worked sequences -/

/-- The bits of bytes, most significant first. -/
def bytesBits (l : List Nat) : List Bool := l.flatMap fun b => (List.range 8).map fun i => b.testBit (7 - i)

set_option maxRecDepth 8000 in
/-- The check of R204 gives 29B1 (hex) on the digits 1 to 9: the check value published for this code. -/
theorem test_check_value :
    (bytesBits [49, 50, 51, 52, 53, 54, 55, 56, 57]).foldl checkStep 65535#16 = 10673#16 := by decide

/-- R202: after power-up TRIP is asserted and PERMIT withdrawn. -/
theorem test_power_up : after .powerUp (underWay .running) (fun t => (t.pins.trip, t.pins.permit, t.step)) =
    some (true, false, .config) := by decide

/-- R3: N wraps at 32 bits. -/
theorem test_encoder_wraps :
    after (.encoderEdge .reverse) (winder .idle) (·.w.tr.n) = some 4294967295
      ∧ after (.encoderEdge .forward) { winder .idle with w.tr.n := 4294967295 } (·.w.tr.n) = some 0 := by decide

/-- R15's worked case: the end load of EMPTY and FULL on 3,100 m. -/
theorem test_end_load : 3100000 * 1250 / 1000000 = 3875 ∧ 3100000 * 2500 / 1000000 = 7750 := by decide

/-- The three passes of chapter 1: the first corrects K by −220, the second is too old, the third raises TRACKING. -/
theorem test_three_passes :
    after (.markerFrame 6 1 14)
        { surveyed .running 2812400 with
          w.tr.k := ⟨120, 0⟩, w.tr.learned := ⟨[learnedAt 6 2812300], []⟩ } (·.w.tr.k) = some ⟨-100, 0⟩
      ∧ after (.markerFrame 6 1 252)
        { surveyed .running 2812400 with
          w.tr.k := ⟨-100, 0⟩, w.tr.learned := ⟨[learnedAt 6 2812300], []⟩ } (·.w.tr.k) = some ⟨-100, 0⟩
      ∧ after (.markerFrame 6 1 0)
        { surveyed .running 2905010 with
          w.tr.k := ⟨-100, 0⟩, w.tr.learned := ⟨[learnedAt 6 2905550], []⟩ }
        (fun t => (t.w.tr.k, t.w.flt.raised.tracking)) = some (⟨-100, 0⟩, true) := by decide

/-- The winder of the worked call list: parked at level 24 under custodian 8, the counter at 41. -/
def callList : State :=
  { surveyed .idle 2206410 with
    w.seq.parked := some (24, 8), w.seq.custodian := some 8, w.seq.seqCounter := 41 }

/-- The worked call list: FETCH from 6 is accepted first with 41; DISPATCH and RELEVEL from 7 are refused. -/
theorem test_call_list :
    after (.callFrame 6 ⟨1, .fetch 8⟩) callList (fun t => (t.line.queue.answer, t.w.seq.list.length))
        = some ([⟨6, some .fetch, .accepted 1 41⟩], 1)
      ∧ after (.callFrame 7 ⟨1, .dispatch 16 0 .men⟩) callList (·.line.queue.answer)
        = some [⟨7, some .dispatch, .refused (some .notCustodian)⟩]
      ∧ after (.callFrame 7 ⟨1, .relevel 16⟩) callList (·.line.queue.answer)
        = some [⟨7, some .relevel, .refused (some .notNear)⟩] := by decide

/-- The worked release: a STATE from the custodian with RELEASE and gates locked starts the hold. -/
theorem test_release :
    after (.stateFrame 8 (.landing { landingState 24 with state := .releasing, first.custody := .release })) callList
        (fun t => (t.w.seq.custodian, t.w.seq.last, t.w.seq.releaseHold)) = some (none, some 8, some 1000) := by
  decide

/-- A completed leg is IDLE; the drop of drive RUNNING before completion is a suspended wind (R93, R102). -/
theorem test_drive_drop :
    after (.driveRunningChange false) { underWay .running with w.env.completion := true } (·.w.seq.wind) = some .idle
      ∧ after (.driveRunningChange false) (underWay .running) (·.w.seq.wind) = some .suspended := by decide

/-- R116, R118: an ALARM of the winder's compartments trips it, PERMIT withdrawn. -/
theorem test_alarm_trips :
    after (.alarmFrame 6 1) (underWay .running) (fun t => (t.w.seq.wind, t.pins.trip, t.pins.permit))
        = some (.tripped, true, false)
      ∧ after (.alarmFrame 6 12) (underWay .running) (·.w.seq.wind) = some .running := by decide

/-- R188: a frame with the own number. -/
theorem test_own_number :
    after (.alarmFrame 6 1) (landing .noCage .idle none 0 0) (fun t => (t.step, t.pins.lampFault))
        = some (.faulted, .steady) := by decide

/-- Level 8 from fetch to dispatch: CALL pressed, and DISPATCH to level 0 in CUSTODY with the gates closed. -/
theorem test_level_8_buttons :
    after .callButton (landing .noCage .idle (some 24) 0 0) (fun t => (t.line.queue.call, t.pins.lampWait))
        = some ([⟨1, .fetch 8⟩], .steady)
      ∧ after (.dispatchButton 0 false true false) (landing .custody .idle (some 8) 6 0)
          (fun t => (t.l.state, t.l.lockTimer, t.pins.gateRelease, t.pins.lampWait))
        = some (.locking, some 2000, false, .flashing) := by decide

/-- The lock contact reports locked: RELEASING, and the pending DISPATCH is placed. -/
theorem test_level_8_locked :
    after (.gateContactChange true true)
        { landing .locking .idle (some 8) 6 0 with l.gateLocked := some false, l.pendingDispatch := some (0, .men) }
        (fun t => (t.l.state, t.line.queue.call)) = some (.releasing, [⟨1, .dispatch 8 0 .men⟩]) := by decide

/-- The lock window runs out: LOCK_FAIL, and CUSTODY with the release energised again. -/
theorem test_lock_window :
    after .lockTimerExpiry { landing .locking .idle (some 8) 6 0 with l.lockTimer := some 0 }
        (fun t => (t.l.state, t.pins.gateRelease, t.pins.lampFault)) = some (.custody, true, .steady) := by decide

/-- Line bits: a start bit on an idle line, a frame error, and the space after a frame. -/
theorem test_line_activity :
    after .startBitReceived (winder .idle) (·.line.activity) = some .receiving
      ∧ after .frameError receiving (·.line.activity) = some .resync
      ∧ after (.interframeSpaceEnd true) { receiving with line.interframe := true } (·.line.activity) = some .resync := by
  decide

/-- R179: of an ALARM, a MARKER and a CALL the ALARM goes first. -/
theorem test_attempt_takes_alarm :
    after .attemptStart queued (fun t => t.line.attempt.map (·.frame.payload)) = some (some (.alarm 1)) := by
  decide

/-- The worked cycle of a rock winder: the tipper's door opens and closes, and its READY is posted. -/
theorem test_tipper_door :
    after (.doorContactChange false) (skipPoint .tipper .inPosition .idle) (fun t => (t.k.state, t.k.dumpTimer))
        = some (.dumping, some 20000)
      ∧ after (.doorContactChange true) { skipPoint .tipper .dumping .idle with k.closed := some false }
          (fun t => (t.k.state, t.line.queue.call)) = some (.dumped, [⟨1, .ready 3⟩]) := by decide

/-- The stuck tipper door: the RESET key with the door open changes nothing, with it closed it posts READY. -/
theorem test_stuck_door :
    after .skipPointResetKey
        { skipPoint .tipper .doorStuck .idle with k.closed := some false, k.doorStuck := true }
        (fun t => (t.k.state, t.k.doorStuck)) = some (.doorStuck, true)
      ∧ after .skipPointResetKey { skipPoint .tipper .doorStuck .idle with k.doorStuck := true }
        (fun t => (t.k.state, t.k.doorStuck, t.k.posted)) = some (.dumped, false, true) := by decide

/-- `DriveTelegramCarriesItsBytes`: 12,000 DOWN, RESUME_REFUSED by CONDITIONS, a MOVING record in FULL resumed twice of node 6
captured at −5 mm, with TRIP released; and a PARKED one of SELECTOR, its X_A unknown, with TRIP asserted from power-up. -/
theorem test_witness_telegram :
    (let sent (s : State) : Option (List Byte) :=
       after .driveTelegram { s with w.drive.timer := some 0 } fun t => t.w.drive.telegram
     let of (c : Cause) (x : Option Int) (k : RecordKind) : Record :=
       { cause := c, phase := .full, x := ⟨x, none⟩, v := ⟨0, 0⟩, kind := k }
     sent { underWay .running with
            w.panel.refusal := .resume .conditions, w.seq.record := some (of (.node 6) (some (-5)) (.moving (moving 2))) }
        = some [0, 46, 224, 1, 37, 82, 70, 255, 255, 255, 251, 46 + 224 + 1 + 37 + 82 + 70 + 255 * 3 + 251]
      ∧ sent { tripped with w.panel.refusal := .cancel, w.seq.record := some (of .selector none (.parked ⟨8, 6⟩)) }
          = some [0, 0, 0, 0, 48, 176, 14, 12, 128, 0, 0, 48 + 176 + 14 + 12 + 128]) := by decide

/-- R206: a telegram of a winder in IDLE with nothing to show: byte 7 is 255, and the sum 255. -/
theorem test_telegram :
    after .driveTelegram { winder .idle with w.drive.timer := some 0 } (fun t => (t.w.drive.telegram, t.w.drive.counter))
        = some ([0, 0, 0, 0, 0, 0, 0, 255, 0, 0, 0, 255], 1) := by decide

/-- R199: the silence timer of level 8's landing. -/
theorem test_silence :
    after (.silenceTimeout 6) (surveyed .idle 742240) (fun t => (statusOf (peerOf t 6), statusOf (peerOf t 5)))
        = some (.silent, .present) := by decide

/-- R187: two pages of one number make the report. -/
theorem test_report_assembly :
    after (.motionPage 1 (.status (status .service .running 1 2 none 0 0))) halfReport
        (fun t => (motionOf (peerOf t 1)).map (·.receivedAt)) = some (some 5) := by decide

/-- R203: without supply the outputs have no energy. -/
theorem test_loss_of_supply :
    after .lossOfSupply (underWay .running) (fun t => (t.step, t.pins.permit, t.pins.trip)) = some (.off, false, true) := by
  decide

end Sys2Proof.Tests
end

section
/-! SUPPORT. The conveyance track: the paid-out length as a sum over the layers (R5), the bounds of an accepted layer
table (R192, R205), and a position sample's velocity, direction and history (R9 to R12), which what follows the tracker's
part of the sample leaves alone (`measured_finish_positionSample`). -/

namespace Sys2Proof.Machine

open Sys2Proof

/-! ## Counts laid into the layers (R5) -/

/-- The counts that each layer takes, in order; the last takes all that are left (R5). -/
def layCounts (cpr : Nat) : List Layer → Nat → List Nat
  | [], _ => []
  | [_], u => [u]
  | l :: m :: ls, u => min u (l.turns * cpr) :: layCounts cpr (m :: ls) (u - min u (l.turns * cpr))

/-- What one layer adds to the paid-out length, truncated on its own (R5). -/
def layerShare (cpr n : Nat) (l : Layer) : Nat := n * l.lam / cpr

@[simp] theorem length_layCounts (cpr : Nat) (ls : List Layer) (u : Nat) : (layCounts cpr ls u).length = ls.length := by
  induction ls, u using layCounts.induct cpr with
  | case1 u => rfl
  | case2 l u => rfl
  | case3 l m ls u ih => simpa [layCounts] using ih

/-- The layers of a table hold every count. -/
theorem sum_layCounts (cpr : Nat) (ls : List Layer) (u : Nat) (h : ls ≠ []) : (layCounts cpr ls u).sum = u := by
  induction ls, u using layCounts.induct cpr with
  | case1 u => exact absurd rfl h
  | case2 l u => simp [layCounts]
  | case3 l m ls u ih =>
    have rest := ih (List.cons_ne_nil m ls)
    simp only [layCounts, List.sum_cons, rest]
    omega

/-- A layer before the last takes what the layers before it have left, up to its own capacity. -/
theorem layCounts_before_last (cpr : Nat) (ls : List Layer) (u : Nat) {k : Nat} {l : Layer} (last : k + 1 < ls.length)
    (hl : ls[k]? = some l) :
    (layCounts cpr ls u)[k]? = some (min (u - ((layCounts cpr ls u).take k).sum) (l.turns * cpr)) := by
  induction ls, u using layCounts.induct cpr generalizing k with
  | case1 u => cases hl
  | case2 m u => simp at last
  | case3 m m' ls u ih =>
    cases k with
    | zero =>
      cases hl
      simp [layCounts]
    | succ k =>
      have rest := ih (by simpa using last) hl
      simpa [layCounts, Nat.sub_sub] using rest

/-- The model's sum over the layers is that of the shares of the counts laid into them. -/
theorem layerSum_eq_sum (cpr : Nat) (ls : List Layer) (u : Nat) :
    layerSum cpr ls u = (List.zipWith (layerShare cpr) (layCounts cpr ls u) ls).sum := by
  induction ls, u using layCounts.induct cpr with
  | case1 u => rfl
  | case2 l u => simp [layerSum, layCounts, layerShare]
  | case3 l m ls u ih => simp [layerSum, layCounts, layerShare, ih]

/-! ## The layer table of an accepted image (R192, R205) -/

theorem clampNat_between {lo hi : Nat} (h : lo ≤ hi) (x : Nat) : lo ≤ clampNat lo hi x ∧ clampNat lo hi x ≤ hi := by
  unfold clampNat
  omega

/-- An accepted image of a winder gives the WINDER fields. -/
theorem acceptImage_winder {m : List Byte} {n : NodeConfig} (h : acceptImage m = some n) (hr : n.role = .winder) :
    n.w = imageWinder m := by
  unfold acceptImage at h
  split at h
  · obtain ⟨r, -, rfl⟩ := Option.map_eq_some_iff.mp h
    cases (hr : r = .winder)
    rfl
  · cases h

theorem imageWinder_conv (m : List Byte) (c : Conv) : ∃ i, (imageWinder m).conv.get c = imageConv m i := by
  cases c with
  | a => exact ⟨24, rfl⟩
  | b => exact ⟨77, rfl⟩

theorem length_imageLayers (m : List Byte) (i : Nat) :
    1 ≤ (imageLayers m i).length ∧ (imageLayers m i).length ≤ 6 := by
  simpa [imageLayers] using clampNat_between (lo := 1) (hi := 6) (by decide) (imageByte m (i + 22))

theorem imageLayer_bounds (m : List Byte) (i : Nat) :
    (1 ≤ (imageLayer m i).turns ∧ (imageLayer m i).turns ≤ 255)
      ∧ 1000000 ≤ (imageLayer m i).lam ∧ (imageLayer m i).lam ≤ 40000000 :=
  ⟨clampNat_between (by decide) _, clampNat_between (by decide) _⟩

theorem mem_imageLayers {m : List Byte} {i : Nat} {l : Layer} (h : l ∈ imageLayers m i) : ∃ j, l = imageLayer m j := by
  obtain ⟨n, -, rfl⟩ := List.mem_map.mp h
  exact ⟨_, rfl⟩

/-- The product of a layer's counts stays within 64 bits. -/
theorem layerProduct_lt {k lam : Nat} (hk : k ≤ 2 ^ 32) (hlam : lam ≤ 40000000) : k * lam < 2 ^ 64 :=
  calc k * lam ≤ 2 ^ 32 * 40000000 := Nat.mul_le_mul hk hlam
    _ < 2 ^ 64 := by decide

/-- Settles O16: the counts of each layer are those of `layCounts`, by induction on the layer table. -/
theorem paidLengthSumsTheLayers : Obligations.PaidLengthSumsTheLayers := by
  unfold Obligations.PaidLengthSumsTheLayers
  refine ⟨fun s c u h => ?_, fun m n hm hr c => ?_⟩
  · refine ⟨layCounts (wcfg s).countsPerRev (conveyance s c).layers u.toNat, length_layCounts _ _ _,
      sum_layCounts _ _ _ h, fun k l hk hl => layCounts_before_last _ _ _ (by simpa using hk) hl, ?_⟩
    exact congrArg (· / 1000) (layerSum_eq_sum _ _ _)
  · rw [acceptImage_winder hm hr]
    obtain ⟨i, hi⟩ := imageWinder_conv m c
    rw [hi]
    obtain ⟨one, six⟩ := length_imageLayers m i
    refine ⟨one, six, fun l hl => ?_⟩
    obtain ⟨j, rfl⟩ := mem_imageLayers hl
    obtain ⟨⟨lowTurns, highTurns⟩, lowLam, highLam⟩ := imageLayer_bounds m j
    exact ⟨lowTurns, highTurns, lowLam, highLam, fun k hk => layerProduct_lt hk highLam⟩

/-! ## The velocity of a sample (R9, R10) -/

@[simp] theorem each_get {α : Type} (f : Conv → α) (c : Conv) : (each f).get c = f c := by
  cases c <;> rfl

/-- The λ taken without an origin is that of a layer that no other exceeds (R10). -/
theorem lamMax_eq {s : State} {c : Conv} {l : Layer} (hl : l ∈ (conveyance s c).layers)
    (greatest : ∀ m ∈ (conveyance s c).layers, m.lam ≤ l.lam) : lamMax s c = l.lam := by
  have largest : ((conveyance s c).layers.map (·.lam)).max? = some l.lam :=
    List.max?_eq_some_iff.mpr ⟨List.mem_map_of_mem hl, by simpa using greatest⟩
  calc lamMax s c = ((conveyance s c).layers.map (·.lam)).foldl max 0 := List.foldl_map.symm
    _ = l.lam := by rw [List.foldl_max, largest]; simp

theorem velocity_of_short_window {s : State} (h : s.w.tr.window.length < 10) (c : Conv) (now : Count) :
    velocity s c now = 0 := by
  have short : windowCount s = none := List.getElem?_eq_none (by simpa [Config.windowDepth] using Nat.le_of_lt_succ h)
  simp [velocity, short]

theorem velocity_of_origin {s : State} {past : Count} {o : Origin} (hp : s.w.tr.window[9]? = some past)
    (ho : s.w.tr.origin = some o) (c : Conv) (now : Count) :
    velocity s c now = ((paidAt s c o now : Int) - paidAt s c o past) * 50 := by
  have hw : windowCount s = some past := hp
  simp [velocity, hw, ho]

theorem velocity_without_origin {s : State} {past : Count} (hp : s.w.tr.window[9]? = some past)
    (ho : s.w.tr.origin = none) (c : Conv) (now : Count) :
    velocity s c now =
      Int.tdiv (Int.tdiv (senseOf s c * countDiff now past * lamMax s c) (wcfg s).countsPerRev) 20 := by
  have hw : windowCount s = some past := hp
  simp [velocity, hw, ho]

/-! ## What the sample measures -/

@[simp] theorem computeTrack_velocity (s : State) (c : Conv) :
    (computeTrack s).w.tr.v.get c = velocity s c s.w.tr.n := each_get _ c

@[simp] theorem computeTrack_direction (s : State) (c : Conv) :
    (computeTrack s).w.tr.dir.get c = directionAfter (s.w.tr.dir.get c) (velocity s c s.w.tr.n) := by
  cases c <;> rfl

/-- The newest history entry holds the sample's directions (R12). -/
theorem computeTrack_history_dir (s : State) :
    (computeTrack s).w.tr.history.head?.map (·.dir) = some (computeTrack s).w.tr.dir := rfl

/-! ## What the rest of the sample leaves alone (R2) -/

/-- The tracker without what the rest of a sample, and what follows it, may write: what is left are N, the origin, the
window, K, the history, and the sample's u, P, S, X, velocities and directions. -/
def measured (s : State) : Tracker := { calmTracker s.w.tr with stallSeen := false }

theorem measured_of_tr {s t : State} (h : t.w.tr = s.w.tr) : measured t = measured s :=
  congrArg (fun r : Tracker => { calmTracker r with stallSeen := false }) h

theorem measured_of_calmWinder {s t : State} (h : calmWinder t.w = calmWinder s.w) : measured t = measured s :=
  congrArg (fun w : Winder => { w.tr with stallSeen := false }) h

theorem velocities_of_measured {s t : State} (h : measured t = measured s) :
    t.w.tr.v = s.w.tr.v ∧ t.w.tr.dir = s.w.tr.dir ∧ t.w.tr.history = s.w.tr.history :=
  have v := congrArg Tracker.v h
  have dir := congrArg Tracker.dir h
  have history := congrArg Tracker.history h
  ⟨v, dir, history⟩

theorem Quiet.measured_eq {s t : State} (h : Quiet s t) : measured t = measured s :=
  measured_of_calmWinder (congrArg State.w h.calmOf_eq)

theorem measured_followMarkers (s : State) : measured (followMarkers s) = measured s := by
  unfold followMarkers
  simp only
  split <;> rfl

theorem measured_trackSample (s : State) : measured (trackSample s) = measured (computeTrack s) :=
  measured_followMarkers (computeTrack (takeRaised s))

theorem superviseSpeed_tr (s : State) : (superviseSpeed s).w.tr = s.w.tr := by
  unfold superviseSpeed
  split <;> rfl

theorem flagCompletion_tr (s : State) : (flagCompletion s).w.tr = s.w.tr := by
  unfold flagCompletion
  split <;> rfl

/-- The envelope's evaluation writes nothing of the tracker. -/
theorem evaluateEnvelope_tr (s : State) : (evaluateEnvelope s).w.tr = s.w.tr := by
  have flag := flagCompletion_tr (superviseStop (superviseLimits (superviseSpeed (formCeiling (latchAt s)))))
  exact flag.trans (superviseSpeed_tr (formCeiling (latchAt s)))

theorem measured_handshake (s : State) : measured (handshake s) = measured s := by
  unfold handshake
  split
  · simp only
    split <;> rfl
  · rfl

theorem measured_surveySample (s : State) : measured (surveySample s) = measured s := by
  have missing : ∀ u : State, measured (testMissing u) = measured u := fun u => by
    unfold testMissing
    split
    · split
      · exact (Quiet.refl.failSurvey _ _).measured_eq
      · rfl
    · rfl
  unfold surveySample
  split
  · rw [missing]
    split <;> rfl
  · rfl

theorem measured_watchHalt (s : State) : measured (watchHalt s) = measured s := by
  unfold watchHalt
  split <;> rfl

theorem measured_park (s : State) : measured (park s) = measured s := by
  unfold park
  simp only
  split
  · split <;> rfl
  · rfl

theorem measured_endCustody (s : State) : measured (endCustody s) = measured s :=
  (Quiet.refl.changePair _ _).measured_eq

theorem measured_restoreCustody (s : State) : measured (restoreCustody s) = measured s := by
  have name : ∀ (n : Nat) (u : State), measured (nameCustodian n u) = measured u := fun n u =>
    (Quiet.refl.changePair _ _).measured_eq
  unfold restoreCustody
  split
  · split
    · rfl
    · simp only
      split
      · exact name _ _
      · rfl
  · rfl

theorem measured_sequenceSample (s : State) : measured (sequenceSample s) = measured s := by
  unfold sequenceSample
  rw [measured_restoreCustody, measured_endCustody, measured_park, measured_watchHalt, measured_surveySample,
    measured_handshake]

theorem tr_positionSample {s : State} (ht : Tracks s) (hs : s.w.sampleTimer.isSome = true) :
    (positionSample s).w.tr =
      (sequenceSample (updateFaults (evaluateEnvelope (updateFaults (trackSample s))))).w.tr := by
  have acts : winderTracks s = true := by simpa [winderTracks, Tracks] using ht
  simp only [positionSample, acts, hs, Bool.and_self, if_true]

/-- A sample leaves in the tracker what its steps 1 to 3 have measured, through all that follows them (R2, log 10). -/
theorem measured_finish_positionSample {s : State} (ht : Tracks s) (hs : s.w.sampleTimer.isSome = true) :
    measured (finish s (positionSample s)) = measured (computeTrack s) := by
  have faults : ∀ u : State, measured (updateFaults u) = measured u := fun _ => rfl
  have envelope : ∀ u : State, measured (evaluateEnvelope u) = measured u := fun u =>
    measured_of_tr (evaluateEnvelope_tr u)
  rw [measured_of_calmWinder (finish_follows s (positionSample s)).calm.1, measured_of_tr (tr_positionSample ht hs),
    measured_sequenceSample, faults, envelope, faults, measured_trackSample]

/-! ## The direction of a sample (R11) -/

theorem directionAfter_pos {v : Int} (old : Dir) (h : 0 < v) : directionAfter old v = .down := if_pos h

theorem directionAfter_neg {v : Int} (old : Dir) (h : v < 0) : directionAfter old v = .up := by
  rw [directionAfter, if_neg (by omega), if_pos h]

@[simp] theorem directionAfter_zero (old : Dir) : directionAfter old 0 = old := rfl

/-- Settles O25: what `computeTrack` measures stands at the end of the sample, and its velocity is that of R9 or R10. -/
theorem directionFollowsTheVelocity : Obligations.DirectionFollowsTheVelocity := by
  unfold Obligations.DirectionFollowsTheVelocity
  refine ⟨rfl, fun s ht hs => ⟨finish s (positionSample s), rfl, ?_⟩⟩
  obtain ⟨v, dir, history⟩ := velocities_of_measured (measured_finish_positionSample ht hs)
  rw [v, dir, history]
  refine ⟨fun c => ?_, computeTrack_history_dir s⟩
  rw [computeTrack_velocity, computeTrack_direction]
  refine ⟨fun h => velocity_of_short_window h c _, fun past o hp ho => velocity_of_origin hp ho c _,
    fun past l hp ho hl greatest => ?_, directionAfter_pos _, directionAfter_neg _, fun h => ?_⟩
  · rw [velocity_without_origin hp ho, lamMax_eq hl greatest]
    rfl
  · rw [h, directionAfter_zero]

end Sys2Proof.Machine
end

section
/-! SUPPORT. The curve function (R29): the bitwise search is the floor integer square root. -/

namespace Sys2Proof.Machine

open Sys2Proof

/-- `r` is the floor integer square root of `n` (spec 00, Arithmetic). -/
def IsFloorRoot (r n : Nat) : Prop := r * r ≤ n ∧ n < (r + 1) * (r + 1)

/-- The search keeps the root between `r` and `r + 2 ^ b` while `b` bits are still to be settled. -/
theorem isFloorRoot_isqrtFrom {b r n : Nat} (lo : r * r ≤ n) (hi : n < (r + 2 ^ b) * (r + 2 ^ b)) :
    IsFloorRoot (isqrtFrom b r n) n := by
  induction b generalizing r with
  | zero => exact ⟨lo, hi⟩
  | succ b ih =>
    have halves : r + 2 ^ (b + 1) = r + 2 ^ b + 2 ^ b := by rw [Nat.pow_succ, Nat.mul_two, Nat.add_assoc]
    rw [halves] at hi
    rw [isqrtFrom]
    split
    · next fits => exact ih fits hi
    · next exceeds => exact ih lo (Nat.lt_of_not_le exceeds)

/-- The bits `isqrt` starts with are enough for the root of `n`. -/
theorem lt_isqrt_start_sq (n : Nat) : n < 2 ^ (n.log2 / 2 + 1) * 2 ^ (n.log2 / 2 + 1) := by
  have bits : n.log2 + 1 ≤ (n.log2 / 2 + 1) + (n.log2 / 2 + 1) := by omega
  calc n < 2 ^ (n.log2 + 1) := Nat.lt_log2_self
    _ ≤ 2 ^ ((n.log2 / 2 + 1) + (n.log2 / 2 + 1)) := Nat.pow_le_pow_right Nat.two_pos bits
    _ = 2 ^ (n.log2 / 2 + 1) * 2 ^ (n.log2 / 2 + 1) := Nat.pow_add 2 _ _

theorem isFloorRoot_isqrt (n : Nat) : IsFloorRoot (isqrt n) n := by
  have start : n < (0 + 2 ^ (n.log2 / 2 + 1)) * (0 + 2 ^ (n.log2 / 2 + 1)) := by
    rw [Nat.zero_add]
    exact lt_isqrt_start_sq n
  exact isFloorRoot_isqrtFrom (Nat.zero_le n) start

/-- Settles O15: the root is the model's `isqrt`, whose search keeps the two bounds down to its last bit. -/
theorem curveIsTheFloorRoot : Obligations.CurveIsTheFloorRoot := by
  unfold Obligations.CurveIsTheFloorRoot
  intro d vEnd a
  obtain ⟨lo, hi⟩ := isFloorRoot_isqrt (vEnd * vEnd + 2 * a * d.toNat)
  exact ⟨isqrt (vEnd * vEnd + 2 * a * d.toNat), lo, hi, rfl⟩

end Sys2Proof.Machine
end
